-- ==== Sys2Proof/Word.lean ====
section
/-! DEFINITION. The word types of the link: the data byte, the 9-bit link word and the 16-bit operand (00_scope.md R8, R10). -/

namespace Sys2Proof

/-- A data byte (R8). -/
abbrev Byte := BitVec 8

/-- A 9-bit link word: the data byte in bits 7..0 and the mode bit in bit 8 (R8, R10, R40). -/
abbrev Word := BitVec 9

/-- A 16-bit unsigned value assembled from two bytes (R8). -/
abbrev Half := BitVec 16

/-- `MODE_BIT = 0x100` (R10). -/
def modeBit : Word := 0x100

end Sys2Proof
end

