-- ==== Sys2Proof/Machine/Codec.lean ====
section
/-! DEFINITION. The frame codec: mode-bit extraction and insertion, checksum and its validation (40_codec.md R55 to R60, R62).
The four functions are pure; appending to TXQ is in Machine/Ops.lean. -/

namespace Sys2Proof.Machine

/-- `Strip(w) = w[7:0]` (R55): the mode bit is discarded whatever its value. -/
def strip (w : Word) : Byte := BitVec.ofNat 8 w.toNat

/-- `mode(w) = w[8]` (R10). -/
def modeOf (w : Word) : Bool := w.getLsbD 8

/-- `Checksum(l) = sum8(l)` (R56): the exact sum, truncated once to 8 bits. -/
def checksum (l : List Byte) : Byte := BitVec.ofNat 8 (l.map BitVec.toNat).sum

/-- `Validate(f)` (R57): the checksum of all words but the last, mode bits stripped, is the last word's data byte. It is false
of the empty list, which is no frame. -/
def validate (f : List Word) : Bool :=
  match f.getLast? with
  | some w => checksum (f.dropLast.map strip) == strip w
  | none => false

/-- `zext_9(b)`: a word with the mode bit clear. -/
def plainWord (b : Byte) : Word := BitVec.ofNat 9 b.toNat

/-- `Terminate(b) = zext_9(b) | MODE_BIT` (R58). -/
def terminate (b : Byte) : Word := plainWord b ||| modeBit

/-- A sequence of data bytes as outbound words: the mode bit set on the last word only (R58, R60). -/
def terminatedWords : List Byte → List Word
  | [] => []
  | [b] => [terminate b]
  | b :: bs => plainWord b :: terminatedWords bs

/-- The words of one response (R60): with `chk`, a checksum word follows the data bytes and is the terminator. -/
def responseWords (bytes : List Byte) (chk : Bool) : List Word :=
  terminatedWords (if chk then bytes ++ [checksum bytes] else bytes)

/-- A command byte as the master sends it: mode bit set (R40). -/
def commandWord (b : Byte) : Word := plainWord b ||| modeBit

/-- The bytes of an inbound frame as the master sends them: mode bit on the first word only (R40, R50). -/
def frameWords : List Byte → List Word
  | [] => []
  | b :: bs => commandWord b :: bs.map plainWord

end Sys2Proof.Machine
end

