-- ==== Sys2Proof/Config.lean ====
section
/-! DEFINITION. The implementation parameters of 00_scope.md R6, their well-formedness (R7), the example configuration EX of
95_test_vectors.md, and the free values of an activation (R11, R77). -/

namespace Sys2Proof

/-- ReaderIdentity, the constant ROM ID[0..7], in the order of transmission (10_state.md R24). -/
structure Identity where
  readerConfig    : Byte
  featureLevel    : Byte
  countryHigh     : Byte
  countryLow      : Byte
  scaleFactor     : Byte
  decimalPlaces   : Byte
  maxResponseTime : Byte
  options         : Byte
  deriving DecidableEq, Repr

/-- ID[0], …, ID[7] as transmitted by the SETUP.CONFIG reply (R24, R83). -/
def Identity.bytes (d : Identity) : List Byte :=
  [d.readerConfig, d.featureLevel, d.countryHigh, d.countryLow, d.scaleFactor, d.decimalPlaces,
    d.maxResponseTime, d.options]

/-- ID[1], …, ID[7], the part that the poll reader-config-data response sends (R91). -/
def Identity.bytesFromFeatureLevel (d : Identity) : List Byte :=
  [d.featureLevel, d.countryHigh, d.countryLow, d.scaleFactor, d.decimalPlaces, d.maxResponseTime,
    d.options]

/-- The named parameters of R6. A capacity `none` is "unbounded" (R36). The two parameters whose value the source fixes,
SUB_SETUP_CONFIG and DISPLAY_MAX, are the constants `subSetupConfig` and `displayMax`. -/
structure Config where
  cmdReset               : Byte
  cmdSetup               : Byte
  cmdPoll                : Byte
  cmdVend                : Byte
  cmdReader              : Byte
  cmdExpansion           : Byte
  subSetupPrice          : Byte
  subVendRequest         : Byte
  subVendCancel          : Byte
  subVendSuccess         : Byte
  subVendFailure         : Byte
  subVendSessionComplete : Byte
  subVendCashSale        : Byte
  subReaderDisable       : Byte
  subReaderEnable        : Byte
  subReaderCancel        : Byte
  rspAck                 : Byte
  evJustReset            : Byte
  evReaderConfig         : Byte
  evDisplayRequest       : Byte
  evBeginSession         : Byte
  evSessionCancelRequest : Byte
  evVendApproved         : Byte
  evVendDenied           : Byte
  evEndSession           : Byte
  evCancelled            : Byte
  evPeripheralId         : Byte
  evMalfunction          : Byte
  evOutOfSequence        : Byte
  evDiagnostic           : Byte
  identity               : Identity
  displayTime            : Byte
  fundsPlaceholder       : Half
  rxCapacity             : Option Nat
  txCapacity             : Option Nat
  deriving DecidableEq, Repr

/-- `SUB_SETUP_CONFIG = 0x00`, the one code the source fixes (R6). -/
def subSetupConfig : Byte := 0x00

/-- `DISPLAY_MAX = 32` (R6). -/
def displayMax : Nat := 32

/-- The six command codes. -/
def Config.commandCodes (c : Config) : List Byte :=
  [c.cmdReset, c.cmdSetup, c.cmdPoll, c.cmdVend, c.cmdReader, c.cmdExpansion]

/-- The SETUP subcommand codes. -/
def Config.setupCodes (c : Config) : List Byte := [subSetupConfig, c.subSetupPrice]

/-- The VEND subcommand codes. -/
def Config.vendCodes (c : Config) : List Byte :=
  [c.subVendRequest, c.subVendCancel, c.subVendSuccess, c.subVendFailure, c.subVendSessionComplete,
    c.subVendCashSale]

/-- The READER subcommand codes. -/
def Config.readerCodes (c : Config) : List Byte :=
  [c.subReaderDisable, c.subReaderEnable, c.subReaderCancel]

/-- Well-formedness of a configuration (R7): command codes pairwise distinct, and within each command the subcommand codes
pairwise distinct. Response and event codes need not be distinct. -/
def Config.wf (c : Config) : Bool :=
  decide c.commandCodes.Nodup && decide c.setupCodes.Nodup && decide c.vendCodes.Nodup &&
    decide c.readerCodes.Nodup

/-- The example configuration EX of 95_test_vectors.md. PRESUMED (log 2): the codes are the MDB family's, which the spec gives
as general knowledge. DESIGN CHOICE (log 3): identity, display time and funds are the spec's own example values; the queues are
unbounded, the spec's default (log 4). Unsafe: another reader has other values. No statement about the machine rests on them. -/
def Config.ex : Config where
  cmdReset := 0x10
  cmdSetup := 0x11
  cmdPoll := 0x12
  cmdVend := 0x13
  cmdReader := 0x14
  cmdExpansion := 0x17
  subSetupPrice := 0x01
  subVendRequest := 0x00
  subVendCancel := 0x01
  subVendSuccess := 0x02
  subVendFailure := 0x03
  subVendSessionComplete := 0x04
  subVendCashSale := 0x05
  subReaderDisable := 0x00
  subReaderEnable := 0x01
  subReaderCancel := 0x02
  rspAck := 0x00
  evJustReset := 0x00
  evReaderConfig := 0x01
  evDisplayRequest := 0x02
  evBeginSession := 0x03
  evSessionCancelRequest := 0x04
  evVendApproved := 0x05
  evVendDenied := 0x06
  evEndSession := 0x07
  evCancelled := 0x08
  evPeripheralId := 0x09
  evMalfunction := 0x0A
  evOutOfSequence := 0x0B
  evDiagnostic := 0xFF
  identity := ⟨0x01, 0x01, 0x18, 0x40, 0x01, 0x02, 0x05, 0x00⟩
  displayTime := 0x1E
  fundsPlaceholder := 0x0102
  rxCapacity := none
  txCapacity := none

/-- The two answers of the authorization collaborator (44_vend_reader.md R103). -/
inductive AuthAnswer where
  | approve
  | deny
  deriving DecidableEq, Repr, Inhabited

/-- FREE VALUE (log 7): the collaborator's answer at the `n`-th draw for a price and an item; under no law (R103). -/
opaque Config.freeAuthorize : (n : Nat) → (price item : Half) → AuthAnswer

/-- FREE VALUE (log 8): byte `i` of the display message of the `n`-th draw (43_poll.md R92). -/
opaque Config.freeMessageByte : (n i : Nat) → Byte

/-- FREE VALUE (log 9): the vend amount of the `n`-th draw, "not yet populated" (43_poll.md R95). -/
opaque Config.freeVendAmount : (n : Nat) → Half

end Sys2Proof
end

