-- ==== Sys2Proof/Machine/State.lean ====
section
/-! DEFINITION. The state of the block (10_state.md R20 to R29, 20_memory.md R30 to R32), the reasons a step stops
(60_exceptions.md R128) and the state after power-up (70_reset_and_hazards.md R130, R131). -/

namespace Sys2Proof.Machine

/-- DC, the negotiated display configuration: four bytes, every value legal (R23). -/
structure DisplayConfig where
  featureLevel : Byte
  columns      : Byte
  rows         : Byte
  info         : Byte
  deriving DecidableEq, Repr

/-- PL, the price limits: two unsigned 16-bit values, every value legal (R25). -/
structure PriceLimits where
  max : Half
  min : Half
  deriving DecidableEq, Repr

/-- RS, the reader enablement state: exactly four values (R26). -/
inductive ReaderState where
  | inactive
  | disabled
  | enabled
  | sessionIdle
  deriving DecidableEq, Repr

/-- PE, the single-slot pending poll event: fourteen values, NONE among them (R27). -/
inductive PollEvent where
  | none
  | justReset
  | readerConfig
  | displayRequest
  | beginSession
  | sessionCancelRequest
  | vendApproved
  | vendDenied
  | endSession
  | cancelled
  | peripheralId
  | malfunction
  | outOfSequence
  | diagnostic
  deriving DecidableEq, Repr

/-- The block with its two queues. `cfg` are the constants of the machine (ID among them), which no step changes (log 1).
`drawCount` is the MODEL's own field: it counts draws and selects the free values (log 6). -/
structure State where
  cfg       : Config
  dc        : DisplayConfig
  pl        : PriceLimits
  rs        : ReaderState
  pe        : PollEvent
  rxq       : List Word
  txq       : List Word
  drawCount : Nat
  deriving DecidableEq, Repr

/-- The faults of the model (R128). A fault ends the run: no later step clears it. -/
inductive Fault where
  /-- `RxPeek(i)` with `i >= RxCount()`; raised by `rxPeek`. Safe: no activation reaches it (R31). -/
  | rxPeekBeyond
  /-- `RxRead()` with `RxCount() = 0`; raised by `rxRead`. Safe: no activation reaches it (R31); a meaning does, when it is run
  on a queue that does not hold its frame (log 13). -/
  | rxReadEmpty
  /-- `TxWrite` to a full TXQ of finite capacity; raised by `txWrite`. Safe: the spec asks for a fault here (R36). -/
  | txqFull
  deriving DecidableEq, Repr

/-- The refusals of the model (R128). -/
inductive Refusal where
  /-- Required by the host's interface; no instruction is rejected by it. Safe. -/
  | notModelled (mnemonic : String)
  /-- The configuration breaks R7; raised by `step` and `hostStep`. Safe: the spec has no step for it. -/
  | illFormedConfig
  /-- A PostEvent whose encoding is no value of PE (R27); raised by `hostStep`. Safe: the spec has no step for it. -/
  | pollEventEncoding
  /-- An Arrive into a full RXQ of finite capacity (R36); raised by `hostStep`. Safe: the spec has no step for it. -/
  | rxqFull
  deriving DecidableEq, Repr

/-- The machine with configuration `c` right after power-up (R130, R131). `drawCount` 0: DESIGN CHOICE (log 6), unsafe; no
statement rests on it. -/
def State.powerUp (c : Config) : State where
  cfg := c
  dc := ⟨0, 0, 0, 0⟩
  pl := ⟨0, 0⟩
  rs := .inactive
  pe := .justReset
  rxq := []
  txq := []
  drawCount := 0

/-- The machine right after reset, for the configuration EX (logs 2, 3, 4). -/
def State.reset : State := State.powerUp Config.ex

/-- The same state with another DC. -/
def State.withDc (s : State) (v : DisplayConfig) : State := { s with dc := v }

/-- The same state with another PL. -/
def State.withPl (s : State) (v : PriceLimits) : State := { s with pl := v }

/-- The same state with another RS. -/
def State.withRs (s : State) (v : ReaderState) : State := { s with rs := v }

/-- The same state with another PE. -/
def State.withPe (s : State) (v : PollEvent) : State := { s with pe := v }

/-- The same state with another RXQ. -/
def State.withRxq (s : State) (v : List Word) : State := { s with rxq := v }

/-- The same state with another TXQ. -/
def State.withTxq (s : State) (v : List Word) : State := { s with txq := v }

/-- The same state with another draw counter. -/
def State.withDrawCount (s : State) (v : Nat) : State := { s with drawCount := v }

end Sys2Proof.Machine
end

