-- ==== Sys2Proof/Machine/Ops.lean ====
section
/-! DEFINITION. The queue primitives (20_memory.md R31, R32, R35, R36), response assembly (40_codec.md R60, R61), the encodings
of RS and PE (10_state.md R26, R27), and the shared shape of a meaning. The block has no exceptions (60_exceptions.md R121), so
there is no operation that takes one. -/

namespace Sys2Proof.Machine

/-- The outcome of a step of this machine. -/
abbrev StepResult := Host.Outcome State Fault Refusal

/-- A computation of the block as a step's outcome. -/
def settle (r : Except Fault State) : StepResult :=
  match r with
  | .ok s => .next s
  | .error f => .fault f

/-- `RxCount()` (R31). -/
def rxCount (s : State) : Nat := s.rxq.length

/-- `RxPeek(i)` (R31): non-destructive; a fault, never a value, beyond the pending count. -/
def rxPeek (i : Nat) (s : State) : Except Fault Word :=
  match s.rxq[i]? with
  | some w => .ok w
  | none => .error .rxPeekBeyond

/-- `RxRead()` (R31): removes and returns the head word; a fault on an empty queue. -/
def rxRead (s : State) : Except Fault (Word × State) :=
  match s.rxq with
  | w :: ws => .ok (w, s.withRxq ws)
  | [] => .error .rxReadEmpty

/-- `for i in 0 .. n-1: b[i] <- Strip(RxRead())` (R74, R82, R100, R110). -/
def readBytes : Nat → State → Except Fault (List Byte × State)
  | 0, s => .ok ([], s)
  | n + 1, s =>
    match rxRead s with
    | .error f => .error f
    | .ok (w, s1) =>
      match readBytes n s1 with
      | .error f => .error f
      | .ok (bs, s2) => .ok (strip w :: bs, s2)

/-- Consume the `n` words of a frame whose bytes the decoder has read already. -/
def consume (n : Nat) (s : State) : Except Fault State :=
  match readBytes n s with
  | .ok (_, s1) => .ok s1
  | .error f => .error f

/-- TXQ has room for `n` more words: always, when TX_CAPACITY is unbounded (R36). -/
def txRoom (n : Nat) (s : State) : Bool :=
  match s.cfg.txCapacity with
  | some k => decide (s.txq.length + n ≤ k)
  | none => true

/-- `TxWrite(w)` (R32); a fault on a full TXQ, never a silent drop (R36). -/
def txWrite (w : Word) (s : State) : Except Fault State :=
  if txRoom 1 s then .ok (s.withTxq (s.txq ++ [w])) else .error .txqFull

/-- `TxWrite` of several words, in order. -/
def txWriteAll : List Word → State → Except Fault State
  | [], s => .ok s
  | w :: ws, s =>
    match txWrite w s with
    | .ok s1 => txWriteAll ws s1
    | .error f => .error f

/-- `Emit(bytes, chk)` (R60). -/
def emit (bytes : List Byte) (chk : Bool) (s : State) : Except Fault State :=
  txWriteAll (responseWords bytes chk) s

/-- The acknowledge response (R61). -/
def acknowledge (s : State) : Except Fault State := emit [s.cfg.rspAck] false s

/-- Step 3 of R82, R102 and R105: with a wrong checksum the frame, already consumed, is discarded: no register is written and
nothing is sent (R57); with a right one the effect `k` takes place. -/
def ifChecksum (good : Bool) (k : State → Except Fault State) (s : State) : Except Fault State :=
  if good then k s else .ok s

/-- The shape of every executed frame: consume its words, then its effect (R74). -/
def afterConsuming (n : Nat) (k : State → Except Fault State) (s : State) : StepResult :=
  settle (match consume n s with
    | .ok s1 => k s1
    | .error f => .error f)

/-- The encoding of RS (R26); internal, never transmitted. -/
def encodeReaderState : ReaderState → BitVec 2
  | .inactive => 0
  | .disabled => 1
  | .enabled => 2
  | .sessionIdle => 3

/-- The encoding of PE (R27); internal, never transmitted. -/
def encodePollEvent : PollEvent → BitVec 4
  | .none => 0
  | .justReset => 1
  | .readerConfig => 2
  | .displayRequest => 3
  | .beginSession => 4
  | .sessionCancelRequest => 5
  | .vendApproved => 6
  | .vendDenied => 7
  | .endSession => 8
  | .cancelled => 9
  | .peripheralId => 10
  | .malfunction => 11
  | .outOfSequence => 12
  | .diagnostic => 13

/-- The values of PE (R27). -/
def pollEvents : List PollEvent :=
  [.none, .justReset, .readerConfig, .displayRequest, .beginSession, .sessionCancelRequest, .vendApproved,
    .vendDenied, .endSession, .cancelled, .peripheralId, .malfunction, .outOfSequence, .diagnostic]

/-- The value of PE that an encoding stands for; 14 and 15 are no values (R27). -/
def decodePollEvent (e : BitVec 4) : Option PollEvent :=
  pollEvents.find? (fun p => encodePollEvent p == e)

/-- The event code sent for an event; NONE has none (R27). -/
def eventCode (c : Config) : PollEvent → Option Byte
  | .none => none
  | .justReset => some c.evJustReset
  | .readerConfig => some c.evReaderConfig
  | .displayRequest => some c.evDisplayRequest
  | .beginSession => some c.evBeginSession
  | .sessionCancelRequest => some c.evSessionCancelRequest
  | .vendApproved => some c.evVendApproved
  | .vendDenied => some c.evVendDenied
  | .endSession => some c.evEndSession
  | .cancelled => some c.evCancelled
  | .peripheralId => some c.evPeripheralId
  | .malfunction => some c.evMalfunction
  | .outOfSequence => some c.evOutOfSequence
  | .diagnostic => some c.evDiagnostic

end Sys2Proof.Machine
end

