-- ==== Sys2Proof/Machine/Pending.lean ====
section
/-! DEFINITION. The head bytes that no handler takes: EXPANSION and unknown commands. The dispatcher "takes no action and leaves
the byte pending" (30_encoding.md R46, 41_dispatcher.md R73). -/

namespace Sys2Proof.Machine

/-- EXPANSION (R46): exactly like an unknown command. -/
def execExpansion (s : State) : StepResult := .next s

/-- An unknown command (R46, R73). -/
def execUnknown (_b : Byte) (s : State) : StepResult := .next s

end Sys2Proof.Machine
end

