-- ==== Sys2Proof/Machine/Operands.lean ====
section
/-! DEFINITION. Operand assembly (30_encoding.md R43, 20_memory.md R33): 16-bit operands are big-endian, unsigned, never
sign-extended. -/

namespace Sys2Proof.Machine

/-- `a:b`, the 16-bit value `a * 256 + b` (00_scope.md R9). -/
def be16 (a b : Byte) : Half := BitVec.ofNat 16 (a.toNat * 256 + b.toNat)

/-- `v[15:8]`. -/
def highByte (v : Half) : Byte := BitVec.ofNat 8 (v.toNat / 256)

/-- `v[7:0]`. -/
def lowByte (v : Half) : Byte := BitVec.ofNat 8 v.toNat

end Sys2Proof.Machine
end

