-- ==== Sys2Proof/Machine/Poll.lean ====
section
/-! DEFINITION. POLL (43_poll.md R88 to R96). -/

namespace Sys2Proof.Machine

/-- The length of the display message: `min(DC.columns * DC.rows, DISPLAY_MAX)` (R92). -/
def displayLength (dc : DisplayConfig) : Nat := min (dc.columns.toNat * dc.rows.toNat) displayMax

/-- The data bytes of the response to a poll that finds the event, and whether a checksum follows (R89 to R96). `message` and
`amount` are the draws of R92 and R95. -/
def pollResponse (c : Config) (dc : DisplayConfig) (message : Nat → Byte) (amount : Half) :
    PollEvent → List Byte × Bool
  | .none => ([c.rspAck], false)
  | .justReset => ([c.evJustReset, c.rspAck], false)
  | .readerConfig => (c.evReaderConfig :: c.identity.bytesFromFeatureLevel, true)
  | .displayRequest =>
    (c.evDisplayRequest :: c.displayTime :: (List.range (displayLength dc)).map message, false)
  | .beginSession =>
    ([c.evBeginSession, highByte c.fundsPlaceholder, lowByte c.fundsPlaceholder], true)
  | .sessionCancelRequest => ([c.evSessionCancelRequest], false)
  | .vendApproved => ([c.evVendApproved, highByte amount, lowByte amount], false)
  | .vendDenied => ([c.evVendDenied], false)
  | .endSession => ([c.evEndSession], false)
  | .cancelled => ([c.evCancelled], false)
  | .peripheralId => ([c.evPeripheralId], false)
  | .malfunction => ([c.evMalfunction], false)
  | .outOfSequence => ([c.evOutOfSequence], false)
  | .diagnostic => ([c.evDiagnostic], false)

/-- R88 for given draws, after the read: PE becomes NONE and the response to its old value is sent. -/
def effectPollWith (message : Nat → Byte) (amount : Half) (s : State) : Except Fault State :=
  emit (pollResponse s.cfg s.dc message amount s.pe).1 (pollResponse s.cfg s.dc message amount s.pe).2
    (s.withPe .none)

/-- How many draws a poll takes: one for the message, one for the amount (R77, R92, R95; log 6). -/
def pollDraws : PollEvent → Nat
  | .none => 0
  | .justReset => 0
  | .readerConfig => 0
  | .displayRequest => 1
  | .beginSession => 0
  | .sessionCancelRequest => 0
  | .vendApproved => 1
  | .vendDenied => 0
  | .endSession => 0
  | .cancelled => 0
  | .peripheralId => 0
  | .malfunction => 0
  | .outOfSequence => 0
  | .diagnostic => 0

/-- R88 with the free values of this activation as its draws. -/
def effectPoll (s : State) : Except Fault State :=
  effectPollWith (Config.freeMessageByte s.drawCount) (Config.freeVendAmount s.drawCount)
    (s.withDrawCount (s.drawCount + pollDraws s.pe))

/-- POLL (R88). -/
def execPoll (s : State) : StepResult := afterConsuming 1 effectPoll s

end Sys2Proof.Machine
end

