-- ==== Sys2Proof/Machine/Reader.lean ====
section
/-! DEFINITION. READER (44_vend_reader.md R110 to R114). No READER frame tests RS and none carries a checksum. -/

namespace Sys2Proof.Machine

/-- R111: RS DISABLED, acknowledge. -/
def effectReaderDisable (s : State) : Except Fault State := acknowledge (s.withRs .disabled)

/-- READER.DISABLE (R111). -/
def execReaderDisable (s : State) : StepResult := afterConsuming 2 effectReaderDisable s

/-- R112: RS ENABLED, acknowledge. -/
def effectReaderEnable (s : State) : Except Fault State := acknowledge (s.withRs .enabled)

/-- READER.ENABLE (R112). -/
def execReaderEnable (s : State) : StepResult := afterConsuming 2 effectReaderEnable s

/-- R113: the cancelled event code at once; PE and RS unchanged. -/
def effectReaderCancel (s : State) : Except Fault State := emit [s.cfg.evCancelled] false s

/-- READER.CANCEL (R113). -/
def execReaderCancel (s : State) : StepResult := afterConsuming 2 effectReaderCancel s

/-- READER, other subcommand (R114): two words consumed, nothing else, whatever the subcommand. -/
def execReaderOther (_sub : Byte) (s : State) : StepResult := afterConsuming 2 (fun s1 => .ok s1) s

end Sys2Proof.Machine
end

