-- ==== Sys2Proof/Syntax.lean ====
section
/-! DEFINITION. The instructions: one constructor per row of spec/opcode_table.json (00_scope.md R2, 30_encoding.md R45). The
operands are the bytes after command and subcommand, 16-bit ones assembled (R43); `chk` is the checksum byte as received (log 12). -/

namespace Sys2Proof

/-- An inbound frame. -/
inductive Instr where
  /-- RESET (R80). -/
  | reset
  /-- SETUP.CONFIG (R83). -/
  | setupConfig (featureLevel columns rows info chk : Byte)
  /-- SETUP.PRICE (R84). -/
  | setupPrice (max min : Half) (chk : Byte)
  /-- SETUP with any other subcommand (R85). -/
  | setupOther (sub p0 p1 p2 p3 chk : Byte)
  /-- POLL (R88). -/
  | poll
  /-- VEND.REQUEST (R102). -/
  | vendRequest (price item : Half) (chk : Byte)
  /-- VEND.CANCEL (R104). -/
  | vendCancel
  /-- VEND.SUCCESS (R105). -/
  | vendSuccess (item : Half) (chk : Byte)
  /-- VEND.FAILURE (R106). -/
  | vendFailure
  /-- VEND.SESSION_COMPLETE (R107). -/
  | vendSessionComplete
  /-- VEND.CASH_SALE (R108). -/
  | vendCashSale
  /-- VEND with any other subcommand (R109). -/
  | vendOther (sub : Byte)
  /-- READER.DISABLE (R111). -/
  | readerDisable
  /-- READER.ENABLE (R112). -/
  | readerEnable
  /-- READER.CANCEL (R113). -/
  | readerCancel
  /-- READER with any other subcommand (R114). -/
  | readerOther (sub : Byte)
  /-- The EXPANSION command code at the head of RXQ: not executed, left pending (R46). -/
  | expansion
  /-- Any other byte at the head of RXQ: not executed, left pending (R46, R73). -/
  | unknown (b : Byte)
  deriving DecidableEq, Repr

end Sys2Proof
end

