-- ==== Sys2Proof/WellFormed.lean ====
section
/-! DEFINITION. Which instructions an encoding can stand for: a subcommand or command byte of an "other" row is none of the
codes that another row takes (spec/opcode_table.json selectors; 30_encoding.md R45). -/

namespace Sys2Proof

/-- `i` is an instruction of the machine with configuration `c`. -/
def Instr.wf (c : Config) : Instr → Bool
  | .setupOther sub _ _ _ _ _ => !c.setupCodes.contains sub
  | .vendOther sub => !c.vendCodes.contains sub
  | .readerOther sub => !c.readerCodes.contains sub
  | .unknown b => !c.commandCodes.contains b
  | .reset => true
  | .setupConfig _ _ _ _ _ => true
  | .setupPrice _ _ _ => true
  | .poll => true
  | .vendRequest _ _ _ => true
  | .vendCancel => true
  | .vendSuccess _ _ => true
  | .vendFailure => true
  | .vendSessionComplete => true
  | .vendCashSale => true
  | .readerDisable => true
  | .readerEnable => true
  | .readerCancel => true
  | .expansion => true

end Sys2Proof
end

