-- ==== Sys2Proof/Decode.lean ====
section
/-! DEFINITION. The decoder over the pending words of RXQ (30_encoding.md R42 to R48, 41_dispatcher.md R70 to R74,
44_vend_reader.md R100, R101, R110), the encoder, and the opcode table's numbering of a word. -/

namespace Sys2Proof

open Sys2Proof.Machine

/-- What the decoder finds at the head of RXQ. Only `frame` is an instruction; the other two are named. -/
inductive Decoded where
  /-- RXQ is empty (R71). -/
  | empty
  /-- A known command whose frame is not complete: `n` more words are needed (R74). -/
  | wait (n : Nat)
  /-- The instruction at the head. -/
  | frame (i : Instr)
  deriving DecidableEq, Repr

/-- VEND frame lengths (R101). -/
def vendLength (c : Config) (sub : Byte) : Nat :=
  if sub = c.subVendRequest then 7
  else if sub = c.subVendCancel then 2
  else if sub = c.subVendSuccess then 5
  else 2

/-- The SETUP instruction of seven data bytes `b[0..6]`, less `b[0]` (R82 to R85). -/
def setupInstr (c : Config) (b1 b2 b3 b4 b5 b6 : Byte) : Instr :=
  if b1 = subSetupConfig then .setupConfig b2 b3 b4 b5 b6
  else if b1 = c.subSetupPrice then .setupPrice (be16 b2 b3) (be16 b4 b5) b6
  else .setupOther b1 b2 b3 b4 b5 b6

/-- SETUP waits for 7 words whatever its subcommand (R82). -/
def decodeSetup (c : Config) (ws : List Word) : Decoded :=
  match ws with
  | _ :: w1 :: w2 :: w3 :: w4 :: w5 :: w6 :: _ =>
    .frame (setupInstr c (strip w1) (strip w2) (strip w3) (strip w4) (strip w5) (strip w6))
  | _ => .wait (7 - ws.length)

/-- The VEND instruction once its subcommand `sub` is visible; `rest` are the pending words after it (R100). -/
def decodeVendSub (c : Config) (sub : Byte) (rest : List Word) : Decoded :=
  if sub = c.subVendRequest then
    match rest with
    | w2 :: w3 :: w4 :: w5 :: w6 :: _ =>
      .frame (.vendRequest (be16 (strip w2) (strip w3)) (be16 (strip w4) (strip w5)) (strip w6))
    | _ => .wait (vendLength c sub - (rest.length + 2))
  else if sub = c.subVendCancel then .frame .vendCancel
  else if sub = c.subVendSuccess then
    match rest with
    | w2 :: w3 :: w4 :: _ => .frame (.vendSuccess (be16 (strip w2) (strip w3)) (strip w4))
    | _ => .wait (vendLength c sub - (rest.length + 2))
  else if sub = c.subVendFailure then .frame .vendFailure
  else if sub = c.subVendSessionComplete then .frame .vendSessionComplete
  else if sub = c.subVendCashSale then .frame .vendCashSale
  else .frame (.vendOther sub)

/-- VEND waits for 2 words, then for the length its subcommand gives (R100). -/
def decodeVend (c : Config) (ws : List Word) : Decoded :=
  match ws with
  | _ :: w1 :: rest => decodeVendSub c (strip w1) rest
  | _ => .wait (2 - ws.length)

/-- The READER instruction of a subcommand (R110 to R114). -/
def readerInstr (c : Config) (b1 : Byte) : Instr :=
  if b1 = c.subReaderDisable then .readerDisable
  else if b1 = c.subReaderEnable then .readerEnable
  else if b1 = c.subReaderCancel then .readerCancel
  else .readerOther b1

/-- READER waits for 2 words (R110). -/
def decodeReader (c : Config) (ws : List Word) : Decoded :=
  match ws with
  | _ :: w1 :: _ => .frame (readerInstr c (strip w1))
  | _ => .wait (2 - ws.length)

/-- The dispatcher's choice on the data byte of the head word (R70, R72, R73, R46). -/
def decode (c : Config) (ws : List Word) : Decoded :=
  match ws with
  | [] => .empty
  | w0 :: _ =>
    let b0 := strip w0
    if b0 = c.cmdReset then .frame .reset
    else if b0 = c.cmdSetup then decodeSetup c ws
    else if b0 = c.cmdPoll then .frame .poll
    else if b0 = c.cmdVend then decodeVend c ws
    else if b0 = c.cmdReader then decodeReader c ws
    else if b0 = c.cmdExpansion then .frame .expansion
    else .frame (.unknown b0)

/-- The data bytes of the frame, less the checksum byte of an F5 or F7 frame (R42, R45). -/
def Instr.body (c : Config) : Instr → List Byte
  | .reset => [c.cmdReset]
  | .setupConfig fl cols rows info _ => [c.cmdSetup, subSetupConfig, fl, cols, rows, info]
  | .setupPrice max min _ =>
    [c.cmdSetup, c.subSetupPrice, highByte max, lowByte max, highByte min, lowByte min]
  | .setupOther sub p0 p1 p2 p3 _ => [c.cmdSetup, sub, p0, p1, p2, p3]
  | .poll => [c.cmdPoll]
  | .vendRequest price item _ =>
    [c.cmdVend, c.subVendRequest, highByte price, lowByte price, highByte item, lowByte item]
  | .vendCancel => [c.cmdVend, c.subVendCancel]
  | .vendSuccess item _ => [c.cmdVend, c.subVendSuccess, highByte item, lowByte item]
  | .vendFailure => [c.cmdVend, c.subVendFailure]
  | .vendSessionComplete => [c.cmdVend, c.subVendSessionComplete]
  | .vendCashSale => [c.cmdVend, c.subVendCashSale]
  | .vendOther sub => [c.cmdVend, sub]
  | .readerDisable => [c.cmdReader, c.subReaderDisable]
  | .readerEnable => [c.cmdReader, c.subReaderEnable]
  | .readerCancel => [c.cmdReader, c.subReaderCancel]
  | .readerOther sub => [c.cmdReader, sub]
  | .expansion => [c.cmdExpansion]
  | .unknown b => [b]

/-- The checksum byte as received, of the frames that carry one: formats F5 and F7 (R42). -/
def Instr.receivedChecksum : Instr → Option Byte
  | .setupConfig _ _ _ _ chk => some chk
  | .setupPrice _ _ chk => some chk
  | .setupOther _ _ _ _ _ chk => some chk
  | .vendRequest _ _ chk => some chk
  | .vendSuccess _ chk => some chk
  | .reset => none
  | .poll => none
  | .vendCancel => none
  | .vendFailure => none
  | .vendSessionComplete => none
  | .vendCashSale => none
  | .vendOther _ => none
  | .readerDisable => none
  | .readerEnable => none
  | .readerCancel => none
  | .readerOther _ => none
  | .expansion => none
  | .unknown _ => none

/-- All data bytes of the frame (R42). -/
def Instr.bytes (c : Config) (i : Instr) : List Byte := i.body c ++ i.receivedChecksum.toList

/-- The frame's checksum byte is the checksum of the bytes before it, or the frame carries none (R57, R42). -/
def Instr.checksumGood (c : Config) (i : Instr) : Bool :=
  match i.receivedChecksum with
  | some chk => checksum (i.body c) == chk
  | none => true

/-- The words of the frame as the master sends them (R40, R50). -/
def encode (c : Config) (i : Instr) : List Word := frameWords (i.bytes c)

/-- How many words the block removes from RXQ when it executes the frame (R42, R46). -/
def Instr.consumed : Instr → Nat
  | .reset => 1
  | .setupConfig _ _ _ _ _ => 7
  | .setupPrice _ _ _ => 7
  | .setupOther _ _ _ _ _ _ => 7
  | .poll => 1
  | .vendRequest _ _ _ => 7
  | .vendCancel => 2
  | .vendSuccess _ _ => 5
  | .vendFailure => 2
  | .vendSessionComplete => 2
  | .vendCashSale => 2
  | .vendOther _ => 2
  | .readerDisable => 2
  | .readerEnable => 2
  | .readerCancel => 2
  | .readerOther _ => 2
  | .expansion => 0
  | .unknown _ => 0

/-- The seven words (the longest frame) of a table word (log 11). spec/opcode_table.json numbers the decode key `b[0]:b[1]`:
the command byte is bits 15..8 and the subcommand byte bits 7..0 (R44); later bytes count on from bit 16. Bits at or above
`nbits` are zero. -/
def tableWords (nbits w : Nat) : List Word :=
  let k := w % 2 ^ nbits
  let byte (n : Nat) : Byte := BitVec.ofNat 8 (k / 2 ^ n)
  frameWords [byte 8, byte 0, byte 16, byte 24, byte 32, byte 40, byte 48]

/-- The instruction the decoder reads from a table word, under the codes the table is computed with (EX, log 2). -/
def decodeTableWord (nbits w : Nat) : Option Instr :=
  match decode Config.ex (tableWords nbits w) with
  | .frame i => some i
  | .wait _ => none
  | .empty => none

end Sys2Proof
end

