-- ==== Sys2Proof/Machine/ResetSetup.lean ====
section
/-! DEFINITION. RESET and SETUP (42_reset_setup.md R80 to R85). An `effect…` is what the handler does once the frame is consumed
and, where it carries a checksum, found good; an `exec…` is the instruction's meaning. -/

namespace Sys2Proof.Machine

/-- R80, after the read: DC and PL zeroed, acknowledge, RS INACTIVE, PE JUST_RESET. -/
def effectReset (s : State) : Except Fault State :=
  match acknowledge ((s.withDc ⟨0, 0, 0, 0⟩).withPl ⟨0, 0⟩) with
  | .ok s1 => .ok ((s1.withRs .inactive).withPe .justReset)
  | .error f => .error f

/-- RESET (R80, R81). -/
def execReset (s : State) : StepResult := afterConsuming 1 effectReset s

/-- R83: DC loaded from the four payload bytes, reply with ID[0..7] and its checksum. -/
def effectSetupConfig (featureLevel columns rows info : Byte) (s : State) : Except Fault State :=
  emit s.cfg.identity.bytes true (s.withDc ⟨featureLevel, columns, rows, info⟩)

/-- SETUP.CONFIG (R82, R83). -/
def execSetupConfig (featureLevel columns rows info chk : Byte) (s : State) : StepResult :=
  afterConsuming 7
    (ifChecksum (Instr.checksumGood s.cfg (.setupConfig featureLevel columns rows info chk))
      (effectSetupConfig featureLevel columns rows info)) s

/-- R84: PL loaded, acknowledge, RS DISABLED. -/
def effectSetupPrice (max min : Half) (s : State) : Except Fault State :=
  match acknowledge (s.withPl ⟨max, min⟩) with
  | .ok s1 => .ok (s1.withRs .disabled)
  | .error f => .error f

/-- SETUP.PRICE (R82, R84). -/
def execSetupPrice (max min : Half) (chk : Byte) (s : State) : StepResult :=
  afterConsuming 7
    (ifChecksum (Instr.checksumGood s.cfg (.setupPrice max min chk)) (effectSetupPrice max min)) s

/-- SETUP, other subcommand (R82, R85): no-op once consumed, whether or not the checksum is good. -/
def execSetupOther (sub p0 p1 p2 p3 chk : Byte) (s : State) : StepResult :=
  afterConsuming 7
    (ifChecksum (Instr.checksumGood s.cfg (.setupOther sub p0 p1 p2 p3 chk)) (fun s1 => .ok s1)) s

end Sys2Proof.Machine
end

