-- ==== Sys2Proof/Machine/Vend.lean ====
section
/-! DEFINITION. VEND (44_vend_reader.md R100 to R109). No VEND frame tests RS, PL or PE. -/

namespace Sys2Proof.Machine

/-- The event that reports an authorization answer (R102). -/
def answerEvent : AuthAnswer → PollEvent
  | .approve => .vendApproved
  | .deny => .vendDenied

/-- R102 for a given answer: PE only; no response. -/
def effectVendRequestWith (d : AuthAnswer) (s : State) : Except Fault State :=
  .ok (s.withPe (answerEvent d))

/-- R102 with the collaborator's answer, one free draw (R103, log 7). -/
def effectVendRequest (price item : Half) (s : State) : Except Fault State :=
  effectVendRequestWith (Config.freeAuthorize s.drawCount price item)
    (s.withDrawCount (s.drawCount + 1))

/-- VEND.REQUEST (R100, R102, R103). -/
def execVendRequest (price item : Half) (chk : Byte) (s : State) : StepResult :=
  afterConsuming 7
    (ifChecksum (Instr.checksumGood s.cfg (.vendRequest price item chk)) (effectVendRequest price item)) s

/-- R104: vend-denied at once, RS SESSION_IDLE. -/
def effectVendCancel (s : State) : Except Fault State :=
  match emit [s.cfg.evVendDenied] false s with
  | .ok s1 => .ok (s1.withRs .sessionIdle)
  | .error f => .error f

/-- VEND.CANCEL (R104). -/
def execVendCancel (s : State) : StepResult := afterConsuming 2 effectVendCancel s

/-- VEND.SUCCESS (R105): acknowledge when the checksum is good; the item is read by no rule. -/
def execVendSuccess (item : Half) (chk : Byte) (s : State) : StepResult :=
  afterConsuming 5 (ifChecksum (Instr.checksumGood s.cfg (.vendSuccess item chk)) acknowledge) s

/-- VEND.FAILURE (R106): acknowledge; the refund flow is outside the block (log 19). -/
def execVendFailure (s : State) : StepResult := afterConsuming 2 acknowledge s

/-- R107: end-session at once, RS ENABLED. -/
def effectVendSessionComplete (s : State) : Except Fault State :=
  match emit [s.cfg.evEndSession] false s with
  | .ok s1 => .ok (s1.withRs .enabled)
  | .error f => .error f

/-- VEND.SESSION_COMPLETE (R107). -/
def execVendSessionComplete (s : State) : StepResult := afterConsuming 2 effectVendSessionComplete s

/-- VEND.CASH_SALE (R108): two words consumed, nothing else. -/
def execVendCashSale (s : State) : StepResult := afterConsuming 2 (fun s1 => .ok s1) s

/-- VEND, other subcommand (R109): two words consumed, nothing else, whatever the subcommand. -/
def execVendOther (_sub : Byte) (s : State) : StepResult := afterConsuming 2 (fun s1 => .ok s1) s

end Sys2Proof.Machine
end

