-- ==== Sys2Proof/Machine/Dispatch.lean ====
section
/-! DEFINITION. One arm per instruction, each one direct call of its meaning. -/

namespace Sys2Proof.Machine

def exec (i : Instr) (s : State) : Host.Outcome State Fault Refusal :=
  match i with
  | .reset => Sys2Proof.Machine.execReset s
  | .setupConfig fl cols rows info chk => Sys2Proof.Machine.execSetupConfig fl cols rows info chk s
  | .setupPrice max min chk => Sys2Proof.Machine.execSetupPrice max min chk s
  | .setupOther sub a b c d chk => Sys2Proof.Machine.execSetupOther sub a b c d chk s
  | .poll => Sys2Proof.Machine.execPoll s
  | .vendRequest price item chk => Sys2Proof.Machine.execVendRequest price item chk s
  | .vendCancel => Sys2Proof.Machine.execVendCancel s
  | .vendSuccess item chk => Sys2Proof.Machine.execVendSuccess item chk s
  | .vendFailure => Sys2Proof.Machine.execVendFailure s
  | .vendSessionComplete => Sys2Proof.Machine.execVendSessionComplete s
  | .vendCashSale => Sys2Proof.Machine.execVendCashSale s
  | .vendOther sub => Sys2Proof.Machine.execVendOther sub s
  | .readerDisable => Sys2Proof.Machine.execReaderDisable s
  | .readerEnable => Sys2Proof.Machine.execReaderEnable s
  | .readerCancel => Sys2Proof.Machine.execReaderCancel s
  | .readerOther sub => Sys2Proof.Machine.execReaderOther sub s
  | .expansion => Sys2Proof.Machine.execExpansion s
  | .unknown b => Sys2Proof.Machine.execUnknown b s

end Sys2Proof.Machine
end

