-- ==== Sys2Proof/Machine/Step.lean ====
section
/-! DEFINITION. The step: one activation of the dispatcher (41_dispatcher.md R70). -/

namespace Sys2Proof.Machine

/-- One activation. An ill-formed configuration has no step (00_scope.md R7, 60_exceptions.md R128); an empty queue (R71) and an
incomplete frame (R74) change nothing (R78); a complete frame, or a head byte that no handler takes, is executed. -/
def step (s : State) : Host.Outcome State Fault Refusal :=
  if s.cfg.wf then
    match decode s.cfg s.rxq with
    | .empty => .next s
    | .wait _ => .next s
    | .frame i => exec i s
  else .refused .illFormedConfig

/-- `s` with the words of a table word at the head of RXQ, where the next activation finds its frame (log 11). It stands for the
host's arrivals of those words (log 10). -/
def State.withFetchWord (s : State) (nbits w : Nat) : State :=
  s.withRxq (tableWords nbits w ++ s.rxq)

end Sys2Proof.Machine
end

