-- ==== Sys2Proof/Machine/FrameText.lean ====
section
/-! DEFINITION. The written form of inbound traffic (30_encoding.md R50): how a line of frame text expands to words. -/

namespace Sys2Proof.Machine

/-- The frame with its right checksum (R50); the same frame where it carries none. -/
def withRightChecksum (c : Config) (i : Instr) : Instr :=
  match i with
  | .setupConfig fl cols rows info _ => .setupConfig fl cols rows info (checksum (i.body c))
  | .setupPrice max min _ => .setupPrice max min (checksum (i.body c))
  | .setupOther sub p0 p1 p2 p3 _ => .setupOther sub p0 p1 p2 p3 (checksum (i.body c))
  | .vendRequest price item _ => .vendRequest price item (checksum (i.body c))
  | .vendSuccess item _ => .vendSuccess item (checksum (i.body c))
  | .reset => .reset
  | .poll => .poll
  | .vendCancel => .vendCancel
  | .vendFailure => .vendFailure
  | .vendSessionComplete => .vendSessionComplete
  | .vendCashSale => .vendCashSale
  | .vendOther sub => .vendOther sub
  | .readerDisable => .readerDisable
  | .readerEnable => .readerEnable
  | .readerCancel => .readerCancel
  | .readerOther sub => .readerOther sub
  | .expansion => .expansion
  | .unknown b => .unknown b

/-- A line of frame text. The checksum operand of the instruction is not read: the text never writes it. -/
inductive FrameLine where
  /-- A frame with a right checksum. -/
  | frame (i : Instr)
  /-- `!BADCHK` on an F5 or F7 frame: the checksum byte is one more than the right one. -/
  | badChecksum (i : Instr)
  /-- `+CHK` on an F1 or F2 frame: one extra word carrying the sum of the frame's data bytes. -/
  | trailingChecksum (i : Instr)
  /-- `RAW w0, w1, …`. -/
  | raw (ws : List Word)
  /-- `~`: one activation with no new arrival. -/
  | tick
  deriving DecidableEq, Repr

/-- The words a line expands to (R50). -/
def FrameLine.words (c : Config) : FrameLine → List Word
  | .frame i => encode c (withRightChecksum c i)
  | .badChecksum i => frameWords (i.body c ++ [checksum (i.body c) + 1])
  | .trailingChecksum i => frameWords (i.body c ++ [checksum (i.body c)])
  | .raw ws => ws
  | .tick => []

end Sys2Proof.Machine
end

