-- ==== Sys2Proof/Machine/Activation.lean ====
section
/-! DEFINITION. The activation a second time, as the spec writes it: the dispatcher and the handlers in pseudocode order over
RxCount, RxPeek and RxRead, with the outcome labels IDLE, WAIT(n), DISCARD and DONE (00_scope.md R11, 41_dispatcher.md R70 to
R74, R82, R88, R100, R110, R123). The step of the machine decodes first and executes then; that the two agree is a statement
for the provers. -/

namespace Sys2Proof.Machine

/-- The outcome labels: the model's own, no signal of the block (R11, R120). -/
inductive Label where
  | idle
  | wait (n : Nat)
  | discard
  | done
  deriving DecidableEq, Repr

/-- How an activation ends. -/
abbrev Ended := Except Fault (Label × State)

/-- `…; return DONE`. -/
def returnDone (r : Except Fault State) : Ended :=
  match r with
  | .ok s => .ok (.done, s)
  | .error f => .error f

/-- R80. -/
def resetHandler (s : State) : Ended :=
  match rxRead s with
  | .ok (_, s1) => returnDone (effectReset s1)
  | .error f => .error f

/-- The subcommands of SETUP (R82), under the codes of `c`. -/
def setupSubcommands (c : Config) (b1 b2 b3 b4 b5 : Byte) (s : State) : Ended :=
  if b1 = subSetupConfig then returnDone (effectSetupConfig b2 b3 b4 b5 s)
  else if b1 = c.subSetupPrice then returnDone (effectSetupPrice (be16 b2 b3) (be16 b4 b5) s)
  else .ok (.done, s)

/-- R82. `readBytes 7` answers seven bytes; another count would be a read that R31 forbids. -/
def setupHandler (s : State) : Ended :=
  if rxCount s < 7 then .ok (.wait (7 - rxCount s), s)
  else
    match readBytes 7 s with
    | .error f => .error f
    | .ok (bs, s1) =>
      match bs with
      | [b0, b1, b2, b3, b4, b5, b6] =>
        if checksum [b0, b1, b2, b3, b4, b5] = b6 then setupSubcommands s.cfg b1 b2 b3 b4 b5 s1
        else .ok (.discard, s1)
      | _ => .error .rxReadEmpty

/-- R88. -/
def pollHandler (s : State) : Ended :=
  match rxRead s with
  | .ok (_, s1) => returnDone (effectPoll s1)
  | .error f => .error f

/-- R102. -/
def vendRequestBody (bs : List Byte) (s : State) : Ended :=
  match bs with
  | [b0, b1, b2, b3, b4, b5, b6] =>
    if checksum [b0, b1, b2, b3, b4, b5] = b6 then
      returnDone (effectVendRequest (be16 b2 b3) (be16 b4 b5) s)
    else .ok (.discard, s)
  | _ => .error .rxReadEmpty

/-- R105. -/
def vendSuccessBody (bs : List Byte) (s : State) : Ended :=
  match bs with
  | [b0, b1, b2, b3, b4] =>
    if checksum [b0, b1, b2, b3] = b4 then returnDone (acknowledge s) else .ok (.discard, s)
  | _ => .error .rxReadEmpty

/-- The subcommands of VEND (R100), under the codes of `c`. -/
def vendSubcommands (c : Config) (sub : Byte) (bs : List Byte) (s : State) : Ended :=
  if sub = c.subVendRequest then vendRequestBody bs s
  else if sub = c.subVendCancel then returnDone (effectVendCancel s)
  else if sub = c.subVendSuccess then vendSuccessBody bs s
  else if sub = c.subVendFailure then returnDone (acknowledge s)
  else if sub = c.subVendSessionComplete then returnDone (effectVendSessionComplete s)
  else if sub = c.subVendCashSale then .ok (.done, s)
  else .ok (.done, s)

/-- R100. -/
def vendHandler (s : State) : Ended :=
  if rxCount s < 2 then .ok (.wait (2 - rxCount s), s)
  else
    match rxPeek 1 s with
    | .error f => .error f
    | .ok w1 =>
      let len := vendLength s.cfg (strip w1)
      if rxCount s < len then .ok (.wait (len - rxCount s), s)
      else
        match readBytes len s with
        | .error f => .error f
        | .ok (bs, s1) => vendSubcommands s.cfg (strip w1) bs s1

/-- The subcommands of READER (R110), under the codes of `c`. -/
def readerSubcommands (c : Config) (b1 : Byte) (s : State) : Ended :=
  if b1 = c.subReaderDisable then returnDone (effectReaderDisable s)
  else if b1 = c.subReaderEnable then returnDone (effectReaderEnable s)
  else if b1 = c.subReaderCancel then returnDone (effectReaderCancel s)
  else .ok (.done, s)

/-- R110. -/
def readerHandler (s : State) : Ended :=
  if rxCount s < 2 then .ok (.wait (2 - rxCount s), s)
  else
    match readBytes 2 s with
    | .error f => .error f
    | .ok (bs, s1) =>
      match bs with
      | [_, b1] => readerSubcommands s.cfg b1 s1
      | _ => .error .rxReadEmpty

/-- `Activate()` (R70). -/
def activate (s : State) : Ended :=
  if rxCount s = 0 then .ok (.idle, s)
  else
    match rxPeek 0 s with
    | .error f => .error f
    | .ok w =>
      if strip w = s.cfg.cmdReset then resetHandler s
      else if strip w = s.cfg.cmdSetup then setupHandler s
      else if strip w = s.cfg.cmdPoll then pollHandler s
      else if strip w = s.cfg.cmdVend then vendHandler s
      else if strip w = s.cfg.cmdReader then readerHandler s
      else .ok (.idle, s)

/-- An activation's end as a step's outcome: the label is no output of the block (R11). -/
def endedResult (r : Ended) : StepResult :=
  match r with
  | .ok (_, s) => .next s
  | .error f => .fault f

/-- The label of an executed frame, read off the instruction (R120). -/
def instrLabel (c : Config) (i : Instr) : Label :=
  if i.consumed = 0 then .idle
  else if i.checksumGood c then .done
  else .discard

/-- The label of what the decoder found. -/
def decodedLabel (c : Config) : Decoded → Label
  | .empty => .idle
  | .wait n => .wait n
  | .frame i => instrLabel c i

/-- The label of the next activation (R70 to R74, R120). -/
def activationLabel (s : State) : Label := decodedLabel s.cfg (decode s.cfg s.rxq)

end Sys2Proof.Machine
end

