-- ==== Sys2Proof/Machine/HostActions.lean ====
section
/-! DEFINITION. The host interface (60_exceptions.md R125, R128): what the transport and its loop may do between activations. -/

namespace Sys2Proof.Machine

/-- The interactions of R125. PostEvent carries the 4-bit encoding of PE, so that an encoding outside R27 can be refused. -/
inductive HostAction where
  | arrive (w : Word)
  | drain
  | activate
  | postEvent (e : BitVec 4)
  | powerUp
  | observe
  deriving DecidableEq, Repr

/-- RXQ can take one more word (R36). -/
def rxRoom (s : State) : Bool :=
  match s.cfg.rxCapacity with
  | some k => decide (s.rxq.length < k)
  | none => true

/-- `Arrive(w)`: admitted only while RXQ has room (R36). -/
def hostArrive (w : Word) (s : State) : StepResult :=
  if rxRoom s then .next (s.withRxq (s.rxq ++ [w])) else .refused .rxqFull

/-- `Drain()`: takes the oldest transmitted word; on an empty TXQ nothing (log 16). -/
def hostDrain (s : State) : StepResult := .next (s.withTxq (s.txq.drop 1))

/-- `PostEvent(e)`: overwrites PE (R27, R125). -/
def hostPostEvent (e : BitVec 4) (s : State) : StepResult :=
  match decodePollEvent e with
  | some p => .next (s.withPe p)
  | none => .refused .pollEventEncoding

/-- `PowerUp()`: every register at its power-up value, both queues empty (R130). The draw counter goes on, so that the draws
after power-up are new ones (log 17). -/
def hostPowerUp (s : State) : StepResult := .next ((State.powerUp s.cfg).withDrawCount s.drawCount)

/-- One interaction (R125). An ill-formed configuration has none (R7, R128). -/
def hostStep (a : HostAction) (s : State) : StepResult :=
  if s.cfg.wf then
    match a with
    | .arrive w => hostArrive w s
    | .drain => hostDrain s
    | .activate => step s
    | .postEvent e => hostPostEvent e s
    | .powerUp => hostPowerUp s
    | .observe => .next s
  else .refused .illFormedConfig

/-- A run: interactions one after another, ending at the first fault or refusal (R128). -/
def runHost : List HostAction → State → StepResult
  | [], s => .next s
  | a :: acts, s =>
    match hostStep a s with
    | .next t => runHost acts t
    | .fault f => .fault f
    | .refused r => .refused r

/-- What the host reads (R125): DC, PL, RS, PE, ID, RXQ, TXQ. -/
structure Observation where
  dc  : DisplayConfig
  pl  : PriceLimits
  rs  : ReaderState
  pe  : PollEvent
  id  : List Byte
  rxq : List Word
  txq : List Word
  deriving DecidableEq, Repr

/-- The observation of a state; it has no effect on the block. -/
def observe (s : State) : Observation where
  dc := s.dc
  pl := s.pl
  rs := s.rs
  pe := s.pe
  id := s.cfg.identity.bytes
  rxq := s.rxq
  txq := s.txq

end Sys2Proof.Machine
end

