-- ==== Sys2Proof/Machine/Responses.lean ====
section
/-! DEFINITION. The complete list of responses (30_encoding.md R49), as a function of the state and the frame, beside the
meanings that send them. -/

namespace Sys2Proof.Machine

/-- The words a frame is answered with (R49); the empty list for a frame that sends no response. -/
def replyWords (s : State) (i : Instr) : List Word :=
  if i.checksumGood s.cfg then
    match i with
    | .reset => [terminate s.cfg.rspAck]
    | .setupConfig _ _ _ _ _ => responseWords s.cfg.identity.bytes true
    | .setupPrice _ _ _ => [terminate s.cfg.rspAck]
    | .setupOther _ _ _ _ _ _ => []
    | .poll =>
      responseWords
        (pollResponse s.cfg s.dc (Config.freeMessageByte s.drawCount) (Config.freeVendAmount s.drawCount) s.pe).1
        (pollResponse s.cfg s.dc (Config.freeMessageByte s.drawCount) (Config.freeVendAmount s.drawCount) s.pe).2
    | .vendRequest _ _ _ => []
    | .vendCancel => [terminate s.cfg.evVendDenied]
    | .vendSuccess _ _ => [terminate s.cfg.rspAck]
    | .vendFailure => [terminate s.cfg.rspAck]
    | .vendSessionComplete => [terminate s.cfg.evEndSession]
    | .vendCashSale => []
    | .vendOther _ => []
    | .readerDisable => [terminate s.cfg.rspAck]
    | .readerEnable => [terminate s.cfg.rspAck]
    | .readerCancel => [terminate s.cfg.evCancelled]
    | .readerOther _ => []
    | .expansion => []
    | .unknown _ => []
  else []

end Sys2Proof.Machine
end

