-- ==== Sys2Proof/Safety.lean ====
section
/-! DEFINITION. What counts as a safe state and a safe run, in the terms the statements use. -/

namespace Sys2Proof.Machine

/-- At rest (60_exceptions.md R129): an activation would return IDLE or WAIT, and TXQ is empty. -/
def State.atRest (s : State) : Bool :=
  (match activationLabel s with
    | .idle => true
    | .wait _ => true
    | .discard => false
    | .done => false) && s.txq.isEmpty

/-- Stalled (70_reset_and_hazards.md R136): the head word of RXQ is none of the five dispatched command codes. -/
def State.stalled (s : State) : Bool :=
  match s.rxq with
  | w :: _ =>
    !([s.cfg.cmdReset, s.cfg.cmdSetup, s.cfg.cmdPoll, s.cfg.cmdVend, s.cfg.cmdReader].contains (strip w))
  | [] => false

/-- A queue of finite capacity holds no more words than that (20_memory.md R36). -/
def withinCapacity (cap : Option Nat) (q : List Word) : Bool :=
  match cap with
  | some k => decide (q.length ≤ k)
  | none => true

/-- Every response in the queue is terminated: the queue is empty or its last word has the mode bit set (40_codec.md R58). -/
def terminatedQueue (q : List Word) : Bool :=
  match q.getLast? with
  | some w => modeOf w
  | none => true

/-- A response as R49 describes it: not empty, mode bit set on the last word and on no other. -/
def isResponse (ws : List Word) : Bool :=
  match ws.getLast? with
  | some w => modeOf w && ws.dropLast.all (fun v => !modeOf v)
  | none => false

/-- The invariant of the machine: a well-formed configuration, both queues within their capacities, TXQ a sequence of whole
responses up to what the host has drained from its head. -/
def State.sound (s : State) : Bool :=
  s.cfg.wf && withinCapacity s.cfg.rxCapacity s.rxq && withinCapacity s.cfg.txCapacity s.txq &&
    terminatedQueue s.txq

end Sys2Proof.Machine
end

