-- ==== Sys2Proof/Certificates/Slice0/Obligations.lean ====
section
/-! DEFINITION. The statements for the provers. Each speaks of every state, and so of every configuration: none rests on the
configuration EX but the two that name it. `log n` is notes/assumptions/n.md. -/

open Sys2Proof Sys2Proof.Machine

/-! ### The frame codec -/

/-- R55: Strip keeps bits 7..0 of a word, whatever its mode bit. -/
def Obligations.StripDiscardsModeBit : Prop :=
  ∀ w : Word, (strip w).toNat = w.toNat % 256 ∧ strip w = BitVec.extractLsb' 0 8 w ∧
    strip (w ||| modeBit) = strip w ∧ strip (w &&& ~~~modeBit) = strip w

/-- R56: the checksum is the exact sum modulo 256; truncating after every addition gives the same; the empty list sums to 0, one
byte is its own checksum, and 256 copies of a byte sum to 0. -/
def Obligations.ChecksumTruncatesOnceOrEachTime : Prop :=
  ∀ l : List Byte, (checksum l).toNat = (l.map BitVec.toNat).sum % 256 ∧
    l.foldl (fun a b => a + b) 0 = checksum l ∧ checksum [] = 0 ∧
    ∀ b : Byte, checksum [b] = b ∧ checksum (List.replicate 256 b) = 0

/-- R57: a frame validates exactly when the checksum of the words before the last is the last word's data byte; no mode bit
enters into it. For the frames that carry a checksum it is the test that the meanings make. -/
def Obligations.ValidateExcludesLastWord : Prop :=
  (∀ (f : List Word) (w : Word), f ≠ [] →
    (validate (f ++ [w]) = true ↔ checksum (f.map strip) = strip w) ∧
      validate ((f ++ [w]).map (fun v => v ||| modeBit)) = validate (f ++ [w])) ∧
  ∀ (c : Config) (i : Instr), i.receivedChecksum ≠ none → validate (encode c i) = i.checksumGood c

/-- R60, with R58's terminator on the last word (the spec's decision D6): with room in TXQ, Emit appends every data byte but the
last with the mode bit clear, then the last with it set; without room it is the fault of R36. -/
def Obligations.EmitAppendsTerminatedResponse : Prop :=
  ∀ (bytes : List Byte) (chk : Bool) (s : State) (front : List Byte) (last : Byte), bytes ≠ [] →
    (if chk then bytes ++ [checksum bytes] else bytes) = front ++ [last] →
    (txRoom (front.length + 1) s = true →
      emit bytes chk s = .ok { s with txq := s.txq ++ (front.map plainWord ++ [terminate last]) }) ∧
    (txRoom (front.length + 1) s = false → emit bytes chk s = .error .txqFull)

/-- R43, R9: a 16-bit operand is assembled high byte first, and its two bytes are read back. -/
def Obligations.OperandsAreBigEndian : Prop :=
  ∀ (a b : Byte) (v : Half), (be16 a b).toNat = a.toNat * 256 + b.toNat ∧ be16 (highByte v) (lowByte v) = v

/-! ### Reset -/

/-- R130, R131: the power-up state. RS = INACTIVE is the source's; the other values are the spec's decision D9. That the host's
reset state is the power-up state of the configuration EX is the model's choice (logs 2, 3, 4). -/
def Obligations.PowerUpValues : Prop :=
  ∀ c : Config, (State.powerUp c).dc = ⟨0x00, 0x00, 0x00, 0x00⟩ ∧ (State.powerUp c).pl = ⟨0x0000, 0x0000⟩ ∧
    (State.powerUp c).rs = .inactive ∧ (State.powerUp c).pe = .justReset ∧ (State.powerUp c).rxq = [] ∧
    (State.powerUp c).txq = [] ∧ (State.powerUp c).cfg = c ∧ State.reset = State.powerUp Config.ex

/-! ### What each instruction does

Decisions of the spec that several of these rest on: the mode bit on the last word of every response (D6), no checksum where none
is listed (D7), PE left at NONE by a poll (D8), POLL's one word (D11), the two-word VEND and READER frames (D13, D16). Each
statement gives the whole next state, so it is the instruction's frame too: what the update does not name is unchanged. -/

/-- R80, R81 (PE: the spec's decision D10): RESET consumes one word, zeroes DC and PL, acknowledges, sets RS to INACTIVE and PE
to JUST_RESET, and leaves all else. -/
def Obligations.ResetClearsRegisters : Prop :=
  ∀ s : State, 1 ≤ s.rxq.length → txRoom 1 s = true →
    exec .reset s = .next { s with
      rxq := s.rxq.drop 1, dc := ⟨0, 0, 0, 0⟩, pl := ⟨0, 0⟩, rs := .inactive, pe := .justReset,
      txq := s.txq ++ [terminate s.cfg.rspAck] } ∧
    instrLabel s.cfg .reset = .done

/-- R83: SETUP.CONFIG with a right checksum loads DC with the four payload bytes and answers ID[0..7] and their checksum; it is
what the step runs on seven pending words with subcommand 0x00. -/
def Obligations.SetupConfigLoadsDisplay : Prop :=
  ∀ (s : State) (fl cols rows info chk : Byte), 7 ≤ s.rxq.length → txRoom 9 s = true →
    chk = checksum [s.cfg.cmdSetup, 0x00, fl, cols, rows, info] →
    exec (.setupConfig fl cols rows info chk) s = .next { s with
      rxq := s.rxq.drop 7, dc := ⟨fl, cols, rows, info⟩,
      txq := s.txq ++ (s.cfg.identity.bytes.map plainWord ++ [terminate (checksum s.cfg.identity.bytes)]) } ∧
    instrLabel s.cfg (.setupConfig fl cols rows info chk) = .done ∧
    (s.cfg.wf = true → (s.rxq.take 7).map strip = [s.cfg.cmdSetup, 0x00, fl, cols, rows, info, chk] →
      step s = exec (.setupConfig fl cols rows info chk) s)

/-- R84 (which value is the maximum: the spec's decision D19): SETUP.PRICE with a right checksum loads PL, acknowledges and sets RS
to DISABLED, from every RS. -/
def Obligations.SetupPriceLoadsLimits : Prop :=
  ∀ (s : State) (max min : Half) (chk : Byte), 7 ≤ s.rxq.length → txRoom 1 s = true →
    chk = checksum [s.cfg.cmdSetup, s.cfg.subSetupPrice, highByte max, lowByte max, highByte min, lowByte min] →
    exec (.setupPrice max min chk) s = .next { s with
      rxq := s.rxq.drop 7, pl := ⟨max, min⟩, rs := .disabled, txq := s.txq ++ [terminate s.cfg.rspAck] } ∧
    instrLabel s.cfg (.setupPrice max min chk) = .done

/-- R85: SETUP with another subcommand removes its seven words and does nothing else, whether its checksum is right (DONE) or
wrong (DISCARD); it is what the step runs on seven pending words with such a subcommand. -/
def Obligations.SetupOtherIsSilent : Prop :=
  ∀ (s : State) (sub p0 p1 p2 p3 chk : Byte), 7 ≤ s.rxq.length →
    exec (.setupOther sub p0 p1 p2 p3 chk) s = .next { s with rxq := s.rxq.drop 7 } ∧
    instrLabel s.cfg (.setupOther sub p0 p1 p2 p3 chk) =
      (if checksum [s.cfg.cmdSetup, sub, p0, p1, p2, p3] = chk then .done else .discard) ∧
    (s.cfg.wf = true → sub ≠ 0x00 → sub ≠ s.cfg.subSetupPrice →
      (s.rxq.take 7).map strip = [s.cfg.cmdSetup, sub, p0, p1, p2, p3, chk] →
      step s = exec (.setupOther sub p0 p1 p2 p3 chk) s)

/-- R90: POLL with JUST_RESET pending answers its code and the acknowledge code, without checksum; PE becomes NONE. -/
def Obligations.PollJustResetResponse : Prop :=
  ∀ s : State, 1 ≤ s.rxq.length → txRoom 2 s = true → s.pe = .justReset →
    exec .poll s = .next { s with
      rxq := s.rxq.drop 1, pe := .none,
      txq := s.txq ++ [plainWord s.cfg.evJustReset, terminate s.cfg.rspAck] }

/-- R91: POLL with READER_CONFIG pending answers its code, ID[1..7] and the checksum of all eight; when ID[0] is that code the
words are those of the SETUP.CONFIG reply. -/
def Obligations.PollReaderConfigResponse : Prop :=
  ∀ s : State, 1 ≤ s.rxq.length → txRoom 9 s = true → s.pe = .readerConfig →
    exec .poll s = .next { s with
      rxq := s.rxq.drop 1, pe := .none,
      txq := s.txq ++
        ([s.cfg.evReaderConfig, s.cfg.identity.featureLevel, s.cfg.identity.countryHigh, s.cfg.identity.countryLow,
            s.cfg.identity.scaleFactor, s.cfg.identity.decimalPlaces, s.cfg.identity.maxResponseTime,
            s.cfg.identity.options].map plainWord ++
          [terminate (checksum [s.cfg.evReaderConfig, s.cfg.identity.featureLevel, s.cfg.identity.countryHigh,
            s.cfg.identity.countryLow, s.cfg.identity.scaleFactor, s.cfg.identity.decimalPlaces,
            s.cfg.identity.maxResponseTime, s.cfg.identity.options])]) } ∧
    ∀ (fl cols rows info chk : Byte), s.cfg.identity.readerConfig = s.cfg.evReaderConfig →
      Instr.checksumGood s.cfg (.setupConfig fl cols rows info chk) = true →
      replyWords s .poll = replyWords s (.setupConfig fl cols rows info chk)

/-- R92 (the cap and the free message: the spec's decision D21): POLL with DISPLAY_REQUEST pending answers its code, the display
time and min(columns * rows, 32) message bytes. The message bytes are free values (log 8). -/
def Obligations.PollDisplayRequestResponse : Prop :=
  ∀ s : State, 1 ≤ s.rxq.length → s.pe = .displayRequest →
    txRoom (2 + min (s.dc.columns.toNat * s.dc.rows.toNat) 32) s = true →
    ∃ (message : List Byte) (draws : Nat), message.length = min (s.dc.columns.toNat * s.dc.rows.toNat) 32 ∧
      exec .poll s = .next { s with
        rxq := s.rxq.drop 1, pe := .none, drawCount := draws,
        txq := s.txq ++ terminatedWords (s.cfg.evDisplayRequest :: s.cfg.displayTime :: message) }

/-- R93 (a constant, high byte first: the spec's decisions D5, D20): POLL with BEGIN_SESSION pending answers its code, the funds
placeholder and the checksum of the three. -/
def Obligations.PollBeginSessionResponse : Prop :=
  ∀ s : State, 1 ≤ s.rxq.length → txRoom 4 s = true → s.pe = .beginSession →
    exec .poll s = .next { s with
      rxq := s.rxq.drop 1, pe := .none,
      txq := s.txq ++
        [plainWord s.cfg.evBeginSession, plainWord (highByte s.cfg.fundsPlaceholder),
          plainWord (lowByte s.cfg.fundsPlaceholder),
          terminate (checksum [s.cfg.evBeginSession, highByte s.cfg.fundsPlaceholder,
            lowByte s.cfg.fundsPlaceholder])] }

/-- R94, R96, R89 (the answer to NONE: the spec's decision D8): POLL with one of the eight events without payload pending answers
one word, its terminated code; with no event pending, the terminated acknowledge code. -/
def Obligations.PollBareEventResponse : Prop :=
  ∀ (s : State) (code : Byte), 1 ≤ s.rxq.length → txRoom 1 s = true →
    (s.pe = .sessionCancelRequest ∧ code = s.cfg.evSessionCancelRequest ∨
      s.pe = .vendDenied ∧ code = s.cfg.evVendDenied ∨ s.pe = .endSession ∧ code = s.cfg.evEndSession ∨
      s.pe = .cancelled ∧ code = s.cfg.evCancelled ∨ s.pe = .peripheralId ∧ code = s.cfg.evPeripheralId ∨
      s.pe = .malfunction ∧ code = s.cfg.evMalfunction ∨ s.pe = .outOfSequence ∧ code = s.cfg.evOutOfSequence ∨
      s.pe = .diagnostic ∧ code = s.cfg.evDiagnostic ∨ s.pe = .none ∧ code = s.cfg.rspAck) →
    exec .poll s = .next { s with rxq := s.rxq.drop 1, pe := .none, txq := s.txq ++ [terminate code] }

/-- R95 (the free amount, high byte first: the spec's decision D20): POLL with VEND_APPROVED pending answers its code and a
16-bit amount, without checksum. The amount is a free value (log 9). -/
def Obligations.PollVendApprovedResponse : Prop :=
  ∀ s : State, 1 ≤ s.rxq.length → txRoom 3 s = true → s.pe = .vendApproved →
    ∃ (amount : Half) (draws : Nat),
      exec .poll s = .next { s with
        rxq := s.rxq.drop 1, pe := .none, drawCount := draws,
        txq := s.txq ++
          [plainWord s.cfg.evVendApproved, plainWord (highByte amount), terminate (lowByte amount)] }

/-- R92, R95, R77: whatever the draws of a poll are, the response carries them, and only them, where the rules put them; PE and
TXQ are all that it writes. -/
def Obligations.PollCarriesEveryDraw : Prop :=
  ∀ (s : State) (message : Nat → Byte) (amount : Half), txRoom 34 s = true →
    (s.pe = .displayRequest →
      effectPollWith message amount s = .ok { s with
        pe := .none,
        txq := s.txq ++ terminatedWords (s.cfg.evDisplayRequest :: s.cfg.displayTime ::
          (List.range (min (s.dc.columns.toNat * s.dc.rows.toNat) 32)).map message) }) ∧
    (s.pe = .vendApproved →
      effectPollWith message amount s = .ok { s with
        pe := .none,
        txq := s.txq ++ terminatedWords [s.cfg.evVendApproved, highByte amount, lowByte amount] }) ∧
    (s.pe ≠ .displayRequest → s.pe ≠ .vendApproved → ∀ (message' : Nat → Byte) (amount' : Half),
      effectPollWith message amount s = effectPollWith message' amount' s)

/-- R102, R103 (the synchronous two-valued answer and no response: the spec's decision D17): VEND.REQUEST with a right checksum
writes VEND_APPROVED or VEND_DENIED to PE, by the collaborator's answer, and nothing else. The answer is a free value (log 7);
the effect admits both. -/
def Obligations.VendRequestPostsAnswer : Prop :=
  ∀ (s : State) (price item : Half) (chk : Byte), 7 ≤ s.rxq.length →
    chk = checksum [s.cfg.cmdVend, s.cfg.subVendRequest, highByte price, lowByte price, highByte item,
      lowByte item] →
    (∃ (answer : AuthAnswer) (draws : Nat),
      exec (.vendRequest price item chk) s = .next { s with
        rxq := s.rxq.drop 7, drawCount := draws,
        pe := match answer with | .approve => .vendApproved | .deny => .vendDenied }) ∧
    instrLabel s.cfg (.vendRequest price item chk) = .done ∧
    effectVendRequestWith .approve s = .ok { s with pe := .vendApproved } ∧
    effectVendRequestWith .deny s = .ok { s with pe := .vendDenied }

/-- R104 (sent at once, PE unchanged: the spec's decision D40): VEND.CANCEL answers vend-denied and sets RS to SESSION_IDLE. -/
def Obligations.VendCancelEndsVend : Prop :=
  ∀ s : State, 2 ≤ s.rxq.length → txRoom 1 s = true →
    exec .vendCancel s = .next { s with
      rxq := s.rxq.drop 2, rs := .sessionIdle, txq := s.txq ++ [terminate s.cfg.evVendDenied] } ∧
    instrLabel s.cfg .vendCancel = .done

/-- R105 (consumed and validated: the spec's decision D14): VEND.SUCCESS with a right checksum acknowledges and writes no
register. -/
def Obligations.VendSuccessAcknowledges : Prop :=
  ∀ (s : State) (item : Half) (chk : Byte), 5 ≤ s.rxq.length → txRoom 1 s = true →
    chk = checksum [s.cfg.cmdVend, s.cfg.subVendSuccess, highByte item, lowByte item] →
    exec (.vendSuccess item chk) s = .next { s with
      rxq := s.rxq.drop 5, txq := s.txq ++ [terminate s.cfg.rspAck] } ∧
    instrLabel s.cfg (.vendSuccess item chk) = .done

/-- R106 (two words: the spec's decision D13; no refund signal: D37, log 19): VEND.FAILURE acknowledges and writes no register. -/
def Obligations.VendFailureAcknowledges : Prop :=
  ∀ s : State, 2 ≤ s.rxq.length → txRoom 1 s = true →
    exec .vendFailure s = .next { s with rxq := s.rxq.drop 2, txq := s.txq ++ [terminate s.cfg.rspAck] } ∧
    instrLabel s.cfg .vendFailure = .done

/-- R107 (two words: D13; sent at once, PE unchanged: D40): VEND.SESSION_COMPLETE answers end-session and sets RS to ENABLED,
from every RS. -/
def Obligations.VendSessionCompleteEnables : Prop :=
  ∀ s : State, 2 ≤ s.rxq.length → txRoom 1 s = true →
    exec .vendSessionComplete s = .next { s with
      rxq := s.rxq.drop 2, rs := .enabled, txq := s.txq ++ [terminate s.cfg.evEndSession] } ∧
    instrLabel s.cfg .vendSessionComplete = .done

/-- R108, R109 (the spec's decision D13): VEND.CASH_SALE and VEND with another subcommand remove two words and do nothing
else. -/
def Obligations.VendPlaceholdersAreSilent : Prop :=
  ∀ (s : State) (sub : Byte), 2 ≤ s.rxq.length →
    exec .vendCashSale s = .next { s with rxq := s.rxq.drop 2 } ∧
    exec (.vendOther sub) s = .next { s with rxq := s.rxq.drop 2 } ∧
    instrLabel s.cfg .vendCashSale = .done ∧ instrLabel s.cfg (.vendOther sub) = .done

/-- R111: READER.DISABLE sets RS to DISABLED and acknowledges, from every RS. -/
def Obligations.ReaderDisableResult : Prop :=
  ∀ s : State, 2 ≤ s.rxq.length → txRoom 1 s = true →
    exec .readerDisable s = .next { s with
      rxq := s.rxq.drop 2, rs := .disabled, txq := s.txq ++ [terminate s.cfg.rspAck] } ∧
    instrLabel s.cfg .readerDisable = .done

/-- R112: READER.ENABLE sets RS to ENABLED and acknowledges, from every RS. -/
def Obligations.ReaderEnableResult : Prop :=
  ∀ s : State, 2 ≤ s.rxq.length → txRoom 1 s = true →
    exec .readerEnable s = .next { s with
      rxq := s.rxq.drop 2, rs := .enabled, txq := s.txq ++ [terminate s.cfg.rspAck] } ∧
    instrLabel s.cfg .readerEnable = .done

/-- R113 (sent at once, PE unchanged: the spec's decision D40): READER.CANCEL answers the cancelled code and writes no
register. -/
def Obligations.ReaderCancelResult : Prop :=
  ∀ s : State, 2 ≤ s.rxq.length → txRoom 1 s = true →
    exec .readerCancel s = .next { s with
      rxq := s.rxq.drop 2, txq := s.txq ++ [terminate s.cfg.evCancelled] } ∧
    instrLabel s.cfg .readerCancel = .done

/-- R114: READER with a subcommand that is no READER code, at the head of RXQ, is executed as the "other" instruction, which
removes its two words and does nothing else. -/
def Obligations.ReaderOtherIsSilent : Prop :=
  ∀ (s : State) (w0 w1 : Word) (rest : List Word), s.cfg.wf = true → s.rxq = w0 :: w1 :: rest →
    strip w0 = s.cfg.cmdReader → strip w1 ≠ s.cfg.subReaderDisable → strip w1 ≠ s.cfg.subReaderEnable →
    strip w1 ≠ s.cfg.subReaderCancel →
    exec (.readerOther (strip w1)) s = .next { s with rxq := rest } ∧
    step s = .next { s with rxq := rest } ∧ activationLabel s = .done

/-- R46 (EXPANSION like an unknown command: the spec's decision D22), R73: EXPANSION and an unknown command change nothing. -/
def Obligations.UnhandledCommandsChangeNothing : Prop :=
  ∀ (s : State) (b : Byte), exec .expansion s = .next s ∧ exec (.unknown b) s = .next s ∧
    instrLabel s.cfg .expansion = .idle ∧ instrLabel s.cfg (.unknown b) = .idle

/-- R57 (frames that carry a checksum), R82, R102, R105: with a wrong checksum the frame is removed from RXQ and nothing else
happens. -/
def Obligations.BadChecksumDiscardsFrame : Prop :=
  ∀ (s : State) (i : Instr), i.checksumGood s.cfg = false → i.consumed ≤ s.rxq.length →
    exec i s = .next { s with rxq := s.rxq.drop i.consumed } ∧ instrLabel s.cfg i = .discard

/-! ### Decoding -/

/-- The step runs the decoded instruction (R70): when the pending words decode to `i`, the step is `exec i`; when RXQ is empty or
the frame is incomplete, nothing changes (R71, R74). -/
def Obligations.StepRunsDecodedInstruction : Prop :=
  ∀ (s : State), s.cfg.wf = true →
    (∀ i : Instr, decode s.cfg s.rxq = .frame i → step s = exec i s) ∧
    (∀ n : Nat, decode s.cfg s.rxq = .wait n → step s = .next s) ∧
    (decode s.cfg s.rxq = .empty ↔ s.rxq = []) ∧ (s.rxq = [] → step s = .next s)

/-- Decode and encode agree: the words of any well-formed instruction, with every operand at every value and any words behind
them, decode to that instruction (R42 to R46). -/
def Obligations.DecodeOfEncode : Prop :=
  ∀ (c : Config) (i : Instr) (rest : List Word), c.wf = true → i.wf c = true →
    decode c (encode c i ++ rest) = .frame i

/-- The other way round: what the decoder reads encodes back to the data bytes it was read from (R41 to R46). -/
def Obligations.EncodeOfDecode : Prop :=
  ∀ (c : Config) (ws : List Word) (i : Instr), decode c ws = .frame i →
    i.bytes c = (ws.take (i.bytes c).length).map strip ∧ (i.bytes c).length ≤ ws.length

/-- Whatever the decoder reads is a well-formed instruction whose words are all pending (R42, R74). -/
def Obligations.DecodedInstructionIsWellFormed : Prop :=
  ∀ (c : Config) (ws : List Word) (i : Instr), decode c ws = .frame i →
    i.wf c = true ∧ i.consumed ≤ ws.length

/-- Sanity, under the codes of EX (log 2): words written out from the encoding tables of the spec decode to the instructions they
stand for. -/
def Obligations.SpecWordsDecodeUnderEX : Prop :=
  decode Config.ex [0x110] = .frame .reset ∧ decode Config.ex [0x012] = .frame .poll ∧
    decode Config.ex [0x111, 0x000, 0x003, 0x002, 0x001, 0x000, 0x017] = .frame (.setupConfig 3 2 1 0 0x17) ∧
    decode Config.ex [0x111, 0x001, 0x012, 0x034, 0x000, 0x005, 0x05D] = .frame (.setupPrice 0x1234 0x0005 0x5D) ∧
    decode Config.ex [0x113, 0x000, 0x000, 0x064, 0x000, 0x007, 0x07E] = .frame (.vendRequest 0x0064 0x0007 0x7E) ∧
    decode Config.ex [0x113, 0x002, 0x000, 0x007, 0x01C] = .frame (.vendSuccess 0x0007 0x1C) ∧
    decode Config.ex [0x114, 0x001, 0x015] = .frame .readerEnable ∧ decode Config.ex [0x117] = .frame .expansion ∧
    decode Config.ex [0x0AA, 0x110] = .frame (.unknown 0xAA)

/-- R82: SETUP at the head of RXQ. Fewer than seven words: WAIT(7 - RxCount()), nothing changed. Seven, wrong checksum: DISCARD,
the seven words removed and nothing else, whatever the subcommand. Seven, right checksum: the subcommand selects the
instruction, which removes exactly those seven. -/
def Obligations.SetupHandlerSteps : Prop :=
  ∀ (s : State) (w0 : Word) (tail : List Word), s.cfg.wf = true → s.rxq = w0 :: tail →
    strip w0 = s.cfg.cmdSetup →
    (s.rxq.length < 7 → step s = .next s ∧ activationLabel s = .wait (7 - s.rxq.length)) ∧
    ∀ (w1 w2 w3 w4 w5 w6 : Word) (rest : List Word),
      tail = w1 :: w2 :: w3 :: w4 :: w5 :: w6 :: rest →
      (checksum [strip w0, strip w1, strip w2, strip w3, strip w4, strip w5] ≠ strip w6 →
        step s = .next { s with rxq := rest } ∧ activationLabel s = .discard) ∧
      (checksum [strip w0, strip w1, strip w2, strip w3, strip w4, strip w5] = strip w6 →
        (strip w1 = 0x00 →
          step s = exec (.setupConfig (strip w2) (strip w3) (strip w4) (strip w5) (strip w6)) s) ∧
        (strip w1 = s.cfg.subSetupPrice →
          step s = exec (.setupPrice (be16 (strip w2) (strip w3)) (be16 (strip w4) (strip w5)) (strip w6)) s) ∧
        (strip w1 ≠ 0x00 → strip w1 ≠ s.cfg.subSetupPrice →
          step s = .next { s with rxq := rest } ∧ activationLabel s = .done) ∧
        ∀ t : State, step s = .next t → t.rxq = rest)

/-- R100, R101 (the waits and the two-word lengths: the spec's decision D13): VEND at the head of RXQ waits for two words, then
for the length its subcommand gives: 7 for REQUEST, 5 for SUCCESS, 2 for any other. -/
def Obligations.VendWaitsForItsLength : Prop :=
  ∀ (s : State) (w0 : Word) (tail : List Word), s.cfg.wf = true → s.rxq = w0 :: tail →
    strip w0 = s.cfg.cmdVend →
    (tail = [] → step s = .next s ∧ activationLabel s = .wait 1) ∧
    ∀ (w1 : Word) (rest : List Word), tail = w1 :: rest →
      (strip w1 = s.cfg.subVendRequest → s.rxq.length < 7 →
        step s = .next s ∧ activationLabel s = .wait (7 - s.rxq.length)) ∧
      (strip w1 = s.cfg.subVendSuccess → s.rxq.length < 5 →
        step s = .next s ∧ activationLabel s = .wait (5 - s.rxq.length)) ∧
      (strip w1 ≠ s.cfg.subVendRequest → strip w1 ≠ s.cfg.subVendSuccess →
        ∀ t : State, step s = .next t → t.rxq = rest ∧ activationLabel s = .done)

/-- R74, R78: an activation that waits for `n` words still waits after fewer than `n` more arrive. -/
def Obligations.WaitLastsUntilWordsArrive : Prop :=
  ∀ (c : Config) (ws more : List Word) (n : Nat), decode c ws = .wait n → more.length < n →
    decode c (ws ++ more) = .wait (n - more.length)

/-- R73: a head byte that is none of the five dispatched command codes: IDLE, and nothing changes. -/
def Obligations.UnknownHeadIsLeftPending : Prop :=
  ∀ (s : State) (w : Word) (rest : List Word), s.cfg.wf = true → s.rxq = w :: rest →
    strip w ≠ s.cfg.cmdReset → strip w ≠ s.cfg.cmdSetup → strip w ≠ s.cfg.cmdPoll →
    strip w ≠ s.cfg.cmdVend → strip w ≠ s.cfg.cmdReader →
    step s = .next s ∧ activationLabel s = .idle

/-! ### The machine as a whole -/

/-- R70, R82, R88, R100, R110: the activation written in the spec's own order over RxCount, RxPeek and RxRead agrees with the
decode-then-execute step, labels included. -/
def Obligations.StepRefinesSpecPseudocode : Prop :=
  ∀ s : State, s.cfg.wf = true →
    step s = endedResult (activate s) ∧
      ∀ (l : Label) (t : State), activate s = .ok (l, t) → l = activationLabel s

/-- R75, R49, R36: whenever a frame is executed, exactly its words leave the head of RXQ, and TXQ gains exactly the response
that the list of R49 gives it; the configuration never changes. -/
def Obligations.ExecutedFrameQueues : Prop :=
  ∀ (i : Instr) (s t : State), exec i s = .next t →
    t.cfg = s.cfg ∧ t.rxq = s.rxq.drop i.consumed ∧ t.txq = s.txq ++ replyWords s i

/-- R49, R58 (terminator on every response: the spec's decision D6), R36: what a frame is answered with is nothing or one whole
response of at most 34 words, mode bit set on its last word only. -/
def Obligations.RepliesAreWholeResponses : Prop :=
  ∀ (s : State) (i : Instr),
    replyWords s i = [] ∨ (isResponse (replyWords s i) = true ∧ (replyWords s i).length ≤ 34)

/-- Exactly when an instruction completes (R36, R121, R128): with its words pending and room for its response it answers a next
state; without room it is the fault of R36. The last clause is the model's choice (log 13, DESIGN CHOICE), no rule of the spec:
`exec` run by itself on too few words answers the fault that R31 names for a read of an empty queue. In the spec such an
activation is a WAIT (R74) and that fault is unreachable (R31), and `step` never runs `exec` there. -/
def Obligations.ExecOutcomeByQueues : Prop :=
  ∀ (i : Instr) (s : State),
    (i.consumed ≤ s.rxq.length → replyWords s i = [] ∨ txRoom (replyWords s i).length s = true →
      ∃ t : State, exec i s = .next t) ∧
    (i.consumed ≤ s.rxq.length → replyWords s i ≠ [] → txRoom (replyWords s i).length s = false →
      exec i s = .fault .txqFull) ∧
    (s.rxq.length < i.consumed → exec i s = .fault .rxReadEmpty)

/-- R23, R25: DC is written by RESET and by SETUP.CONFIG with a right checksum, PL by RESET and by SETUP.PRICE with a right
checksum, and neither by anything else. -/
def Obligations.DisplayAndPriceWriters : Prop :=
  ∀ (i : Instr) (s t : State), exec i s = .next t →
    (t.dc = s.dc ∨ (i = .reset ∧ t.dc = ⟨0, 0, 0, 0⟩) ∨
      ∃ fl cols rows info chk : Byte, i = .setupConfig fl cols rows info chk ∧
        i.checksumGood s.cfg = true ∧ t.dc = ⟨fl, cols, rows, info⟩) ∧
    (t.pl = s.pl ∨ (i = .reset ∧ t.pl = ⟨0, 0⟩) ∨
      ∃ (max min : Half) (chk : Byte), i = .setupPrice max min chk ∧ i.checksumGood s.cfg = true ∧
        t.pl = ⟨max, min⟩)

/-- R26: RS is written by exactly the six writers of the rule's table, each whatever the current value. -/
def Obligations.ReaderStateWriters : Prop :=
  ∀ (i : Instr) (s t : State), exec i s = .next t →
    t.rs = match i with
      | .reset => .inactive
      | .setupPrice _ _ _ => if i.checksumGood s.cfg then .disabled else s.rs
      | .vendCancel => .sessionIdle
      | .vendSessionComplete => .enabled
      | .readerDisable => .disabled
      | .readerEnable => .enabled
      | .setupConfig _ _ _ _ _ => s.rs
      | .setupOther _ _ _ _ _ _ => s.rs
      | .poll => s.rs
      | .vendRequest _ _ _ => s.rs
      | .vendSuccess _ _ => s.rs
      | .vendFailure => s.rs
      | .vendCashSale => s.rs
      | .vendOther _ => s.rs
      | .readerCancel => s.rs
      | .readerOther _ => s.rs
      | .expansion => s.rs
      | .unknown _ => s.rs

/-- R27: PE is written by RESET (JUST_RESET), POLL (NONE) and VEND.REQUEST with a right checksum (VEND_APPROVED or VEND_DENIED);
no other instruction writes it, so the block sets none of the other ten values. -/
def Obligations.PendingEventWriters : Prop :=
  ∀ (i : Instr) (s t : State), exec i s = .next t →
    t.pe = s.pe ∨ (i = .reset ∧ t.pe = .justReset) ∨ (i = .poll ∧ t.pe = .none) ∨
      ((∃ (price item : Half) (chk : Byte), i = .vendRequest price item chk) ∧
        i.checksumGood s.cfg = true ∧ (t.pe = .vendApproved ∨ t.pe = .vendDenied))

/-- R88 (an event is reported once: the spec's decision D8): a poll that finds an event sends its code as the first data byte
and leaves PE at NONE; the next poll acknowledges. -/
def Obligations.PollReportsEventOnce : Prop :=
  ∀ (s t : State), exec .poll s = .next t → t.pe = .none ∧
    (∀ code : Byte, eventCode s.cfg s.pe = some code →
      ((t.txq.drop s.txq.length).head?).map strip = some code) ∧
    ∀ u : State, exec .poll t = .next u → u.txq = t.txq ++ [terminate s.cfg.rspAck]

/-- R71, R73, R74, R78, R57, R129: the label of an activation says what it does. IDLE and WAIT change nothing; DISCARD removes
words from RXQ and changes nothing else; at rest, an activation changes nothing. -/
def Obligations.LabelsSayWhatHappened : Prop :=
  ∀ s : State, s.cfg.wf = true →
    (activationLabel s = .idle → step s = .next s) ∧
    (∀ n : Nat, activationLabel s = .wait n → 0 < n ∧ step s = .next s) ∧
    (activationLabel s = .discard →
      ∃ k : Nat, (k = 5 ∨ k = 7) ∧ k ≤ s.rxq.length ∧ step s = .next { s with rxq := s.rxq.drop k }) ∧
    (s.atRest = true → step s = .next s)

/-- R37: a word that arrives while a complete frame is pending does not change what the activation computes. -/
def Obligations.ArrivalDoesNotDisturbFrame : Prop :=
  ∀ (s t : State) (i : Instr) (more : List Word), decode s.cfg s.rxq = .frame i → step s = .next t →
    step { s with rxq := s.rxq ++ more } = .next { t with rxq := t.rxq ++ more }

/-- R41: no inbound mode bit is ever tested. Two states whose pending words have the same data bytes step alike, and their
pending words still have the same data bytes. -/
def Obligations.InboundModeBitsAreIgnored : Prop :=
  ∀ (s : State) (q : List Word), q.map strip = s.rxq.map strip →
    activationLabel { s with rxq := q } = activationLabel s ∧
    (∀ t : State, step s = .next t →
      ∃ q' : List Word, q'.map strip = t.rxq.map strip ∧ step { s with rxq := q } = .next { t with rxq := q' }) ∧
    (∀ f : Fault, step s = .fault f → step { s with rxq := q } = .fault f)

/-- R26, R25, R23: no rule reads RS, PL, DC.featureLevel or DC.info: their values affect no word sent, no word consumed and no
event. -/
def Obligations.UnreadRegistersAffectNoOutput : Prop :=
  ∀ (s : State) (rs : ReaderState) (pl : PriceLimits) (fl info : Byte),
    (∀ t : State, step s = .next t → ∃ t' : State,
      step { s with rs := rs, pl := pl, dc := ⟨fl, s.dc.columns, s.dc.rows, info⟩ } = .next t' ∧
      t'.txq = t.txq ∧ t'.rxq = t.rxq ∧ t'.pe = t.pe ∧ t'.drawCount = t.drawCount ∧
      t'.dc.columns = t.dc.columns ∧ t'.dc.rows = t.dc.rows) ∧
    (∀ f : Fault, step s = .fault f →
      step { s with rs := rs, pl := pl, dc := ⟨fl, s.dc.columns, s.dc.rows, info⟩ } = .fault f)

/-- R121, R128, R36: an activation faults only on a full TXQ of finite capacity that has no room for a response of at most 34
words; the faults of R31 are unreachable; with an unbounded TXQ every activation answers a next state. -/
def Obligations.ActivationFaultsOnlyOnFullQueue : Prop :=
  ∀ s : State, s.cfg.wf = true →
    (∀ f : Fault, step s = .fault f →
      f = .txqFull ∧ ∃ k : Nat, s.cfg.txCapacity = some k ∧ k < s.txq.length + 34) ∧
    (s.cfg.txCapacity = none → ∃ t : State, step s = .next t)

/-- R7, R128: the step refuses exactly the ill-formed configurations. -/
def Obligations.StepRefusesIllFormedConfig : Prop :=
  ∀ s : State, (s.cfg.wf = false → step s = .refused .illFormedConfig) ∧
    ∀ r : Refusal, step s = .refused r → s.cfg.wf = false

/-- The invariant holds after power-up (R130; empty queues: the spec's decision D9), for every well-formed configuration, and at
the host's reset state, whose configuration is the model's choice (logs 2, 3, 4). -/
def Obligations.SoundAtPowerUp : Prop :=
  (∀ c : Config, c.wf = true → (State.powerUp c).sound = true) ∧ State.reset.sound = true

/-- An invariant that every step keeps: the configuration is well-formed, both queues are within their capacities, and the last
word of TXQ carries the mode bit (R7, R36, R58). -/
def Obligations.StepKeepsSound : Prop :=
  ∀ s t : State, s.sound = true → step s = .next t → t.sound = true

/-- The same invariant over every run of host interactions (R125), from every state that has it. -/
def Obligations.HostRunKeepsSound : Prop :=
  ∀ (acts : List HostAction) (s t : State), s.sound = true → runHost acts s = .next t → t.sound = true

/-- R136: once the head word of RXQ is none of the five dispatched command codes, no run without a power-up ever removes it or
changes DC, PL or RS, and nothing more is sent: TXQ is only drained. -/
def Obligations.UnknownHeadStallsForever : Prop :=
  ∀ (acts : List HostAction) (s t : State), s.stalled = true → HostAction.powerUp ∉ acts →
    runHost acts s = .next t →
    t.stalled = true ∧ t.rxq.head? = s.rxq.head? ∧ t.dc = s.dc ∧ t.pl = s.pl ∧ t.rs = s.rs ∧
      ∃ k : Nat, t.txq = s.txq.drop k

/-- R125, R128 (Drain of an empty TXQ: log 16; the draw counter at PowerUp: log 17): what each host interaction does. -/
def Obligations.HostInteractionEffects : Prop :=
  ∀ s : State, s.cfg.wf = true →
    (∀ w : Word, rxRoom s = true → hostStep (.arrive w) s = .next { s with rxq := s.rxq ++ [w] }) ∧
    (∀ w : Word, rxRoom s = false → hostStep (.arrive w) s = .refused .rxqFull) ∧
    hostStep .drain s = .next { s with txq := s.txq.tail } ∧ hostStep .activate s = step s ∧
    (∀ p : PollEvent, hostStep (.postEvent (encodePollEvent p)) s = .next { s with pe := p }) ∧
    (∀ e : BitVec 4, 14 ≤ e.toNat → hostStep (.postEvent e) s = .refused .pollEventEncoding) ∧
    hostStep .powerUp s = .next { State.powerUp s.cfg with drawCount := s.drawCount } ∧
    hostStep .observe s = .next s

/-- R50, R57: a written frame line decodes to its instruction with a right checksum, a `!BADCHK` line to a frame that is
discarded. -/
def Obligations.FrameLinesDecode : Prop :=
  ∀ (c : Config) (i : Instr) (rest : List Word), c.wf = true → i.wf c = true →
    decode c ((FrameLine.frame i).words c ++ rest) = .frame (withRightChecksum c i) ∧
    (withRightChecksum c i).checksumGood c = true ∧
    (i.receivedChecksum ≠ none → ∃ j : Instr,
      decode c ((FrameLine.badChecksum i).words c ++ rest) = .frame j ∧ instrLabel c j = .discard)

/-- R137, R75: the checksum word that a master appends to a frame without checksum is left at the head of RXQ. -/
def Obligations.TrailingChecksumStaysPending : Prop :=
  ∀ (s t : State) (i : Instr) (rest : List Word), s.cfg.wf = true → i.wf s.cfg = true →
    i.receivedChecksum = none → 0 < i.consumed →
    s.rxq = (FrameLine.trailingChecksum i).words s.cfg ++ rest → step s = .next t →
    t.rxq = plainWord (checksum (i.body s.cfg)) :: rest
end

