-- ==== Sys2Proof/Laws/Codec.lean ====
section
/-! SUPPORT. Lemmas about the frame codec and operand assembly. -/

namespace Sys2Proof.Machine

@[simp] theorem strip_plainWord (b : Byte) : strip (plainWord b) = b := by
  apply BitVec.eq_of_toNat_eq
  have := b.isLt
  simp [strip, plainWord]
  omega

theorem strip_or_modeBit (w : Word) : strip (w ||| modeBit) = strip w := by
  have : ∀ w : Word, strip (w ||| modeBit) = strip w := by decide
  exact this w

@[simp] theorem strip_terminate (b : Byte) : strip (terminate b) = b := by
  rw [terminate, strip_or_modeBit, strip_plainWord]

@[simp] theorem strip_commandWord (b : Byte) : strip (commandWord b) = b := by
  rw [commandWord, strip_or_modeBit, strip_plainWord]

@[simp] theorem modeOf_plainWord (b : Byte) : modeOf (plainWord b) = false := by
  have : ∀ b : Byte, modeOf (plainWord b) = false := by decide
  exact this b

@[simp] theorem modeOf_terminate (b : Byte) : modeOf (terminate b) = true := by
  have : ∀ b : Byte, modeOf (terminate b) = true := by decide
  exact this b

@[simp] theorem checksum_nil : checksum [] = 0 := rfl

theorem checksum_cons (b : Byte) (l : List Byte) : checksum (b :: l) = b + checksum l := by
  apply BitVec.eq_of_toNat_eq
  simp [checksum, BitVec.toNat_add, Nat.add_mod]

theorem checksum_append (l m : List Byte) : checksum (l ++ m) = checksum l + checksum m := by
  apply BitVec.eq_of_toNat_eq
  simp [checksum, BitVec.toNat_add, Nat.add_mod]

@[simp] theorem be16_high_low (v : Half) : be16 (highByte v) (lowByte v) = v := by
  apply BitVec.eq_of_toNat_eq
  have := v.isLt
  simp [be16, highByte, lowByte]
  omega

@[simp] theorem highByte_be16 (a b : Byte) : highByte (be16 a b) = a := by
  apply BitVec.eq_of_toNat_eq
  have := a.isLt
  have := b.isLt
  simp [be16, highByte]
  omega

@[simp] theorem lowByte_be16 (a b : Byte) : lowByte (be16 a b) = b := by
  apply BitVec.eq_of_toNat_eq
  have := a.isLt
  have := b.isLt
  simp [be16, lowByte]
  omega

@[simp] theorem terminatedWords_singleton (b : Byte) : terminatedWords [b] = [terminate b] := rfl

theorem terminatedWords_cons (b : Byte) {bs : List Byte} (h : bs ≠ []) :
    terminatedWords (b :: bs) = plainWord b :: terminatedWords bs := by
  cases bs with
  | nil => exact absurd rfl h
  | cons _ _ => rfl

/-- Everything `terminatedWords` does: all bytes but the last plain, the last terminated. -/
theorem terminatedWords_concat (bs : List Byte) (b : Byte) :
    terminatedWords (bs ++ [b]) = bs.map plainWord ++ [terminate b] := by
  induction bs with
  | nil => rfl
  | cons a as ih => simp [terminatedWords_cons, ih]

@[simp] theorem length_terminatedWords (bs : List Byte) : (terminatedWords bs).length = bs.length := by
  rcases List.eq_nil_or_concat bs with rfl | ⟨as, b, rfl⟩
  · rfl
  · simp [terminatedWords_concat]

@[simp] theorem map_strip_terminatedWords (bs : List Byte) : (terminatedWords bs).map strip = bs := by
  rcases List.eq_nil_or_concat bs with rfl | ⟨as, b, rfl⟩
  · rfl
  · simp [terminatedWords_concat, Function.comp_def]

@[simp] theorem length_responseWords (bs : List Byte) (chk : Bool) :
    (responseWords bs chk).length = bs.length + chk.toNat := by
  cases chk <;> simp [responseWords]

@[simp] theorem map_strip_frameWords (bs : List Byte) : (frameWords bs).map strip = bs := by
  cases bs <;> simp [frameWords, Function.comp_def]

@[simp] theorem length_frameWords (bs : List Byte) : (frameWords bs).length = bs.length := by
  cases bs <;> simp [frameWords]

end Sys2Proof.Machine
end

