-- ==== Sys2Proof/Laws/Config.lean ====
section
/-! SUPPORT. What the well-formedness of a configuration gives (00_scope.md R7): each code differs from the codes that are
compared before it. -/

namespace Sys2Proof

theorem Config.wf_iff (c : Config) :
    c.wf = true ↔ c.commandCodes.Nodup ∧ c.setupCodes.Nodup ∧ c.vendCodes.Nodup ∧ c.readerCodes.Nodup := by
  simp [Config.wf, and_assoc]

theorem Config.command_codes_ne {c : Config} (h : c.wf = true) :
    c.cmdSetup ≠ c.cmdReset ∧ c.cmdPoll ≠ c.cmdReset ∧ c.cmdPoll ≠ c.cmdSetup ∧ c.cmdVend ≠ c.cmdReset ∧
      c.cmdVend ≠ c.cmdSetup ∧ c.cmdVend ≠ c.cmdPoll ∧ c.cmdReader ≠ c.cmdReset ∧ c.cmdReader ≠ c.cmdSetup ∧
      c.cmdReader ≠ c.cmdPoll ∧ c.cmdReader ≠ c.cmdVend ∧ c.cmdExpansion ≠ c.cmdReset ∧
      c.cmdExpansion ≠ c.cmdSetup ∧ c.cmdExpansion ≠ c.cmdPoll ∧ c.cmdExpansion ≠ c.cmdVend ∧
      c.cmdExpansion ≠ c.cmdReader := by
  have hn := ((Config.wf_iff c).1 h).1
  simp [Config.commandCodes] at hn
  grind

theorem Config.setup_codes_ne {c : Config} (h : c.wf = true) : c.subSetupPrice ≠ subSetupConfig := by
  have hn := ((Config.wf_iff c).1 h).2.1
  simp [Config.setupCodes] at hn
  grind

theorem Config.vend_codes_ne {c : Config} (h : c.wf = true) :
    c.subVendCancel ≠ c.subVendRequest ∧ c.subVendSuccess ≠ c.subVendRequest ∧
      c.subVendSuccess ≠ c.subVendCancel ∧ c.subVendFailure ≠ c.subVendRequest ∧
      c.subVendFailure ≠ c.subVendCancel ∧ c.subVendFailure ≠ c.subVendSuccess ∧
      c.subVendSessionComplete ≠ c.subVendRequest ∧ c.subVendSessionComplete ≠ c.subVendCancel ∧
      c.subVendSessionComplete ≠ c.subVendSuccess ∧ c.subVendSessionComplete ≠ c.subVendFailure ∧
      c.subVendCashSale ≠ c.subVendRequest ∧ c.subVendCashSale ≠ c.subVendCancel ∧
      c.subVendCashSale ≠ c.subVendSuccess ∧ c.subVendCashSale ≠ c.subVendFailure ∧
      c.subVendCashSale ≠ c.subVendSessionComplete := by
  have hn := ((Config.wf_iff c).1 h).2.2.1
  simp [Config.vendCodes] at hn
  grind

theorem Config.reader_codes_ne {c : Config} (h : c.wf = true) :
    c.subReaderEnable ≠ c.subReaderDisable ∧ c.subReaderCancel ≠ c.subReaderDisable ∧
      c.subReaderCancel ≠ c.subReaderEnable := by
  have hn := ((Config.wf_iff c).1 h).2.2.2
  simp [Config.readerCodes] at hn
  grind

end Sys2Proof
end

