-- ==== Sys2Proof/Laws/Decode.lean ====
section
/-! SUPPORT. What each part of the decoder answers, said once per command (30_encoding.md R42 to R46). -/

namespace Sys2Proof

open Sys2Proof.Machine

@[simp] theorem decode_nil (c : Config) : decode c [] = .empty := rfl

theorem decode_reset {c : Config} {w : Word} (ws : List Word) (h : strip w = c.cmdReset) :
    decode c (w :: ws) = .frame .reset := by
  simp [decode, h]

theorem decode_setup {c : Config} {w : Word} (ws : List Word) (hc : c.wf = true) (h : strip w = c.cmdSetup) :
    decode c (w :: ws) = decodeSetup c (w :: ws) := by
  simp [decode, h, Config.command_codes_ne hc]

theorem decode_poll {c : Config} {w : Word} (ws : List Word) (hc : c.wf = true) (h : strip w = c.cmdPoll) :
    decode c (w :: ws) = .frame .poll := by
  simp [decode, h, Config.command_codes_ne hc]

theorem decode_vend {c : Config} {w : Word} (ws : List Word) (hc : c.wf = true) (h : strip w = c.cmdVend) :
    decode c (w :: ws) = decodeVend c (w :: ws) := by
  simp [decode, h, Config.command_codes_ne hc]

theorem decode_reader {c : Config} {w : Word} (ws : List Word) (hc : c.wf = true)
    (h : strip w = c.cmdReader) : decode c (w :: ws) = decodeReader c (w :: ws) := by
  simp [decode, h, Config.command_codes_ne hc]

theorem decodeSetup_cons (c : Config) (w0 w1 w2 w3 w4 w5 w6 : Word) (ws : List Word) :
    decodeSetup c (w0 :: w1 :: w2 :: w3 :: w4 :: w5 :: w6 :: ws) =
      .frame (setupInstr c (strip w1) (strip w2) (strip w3) (strip w4) (strip w5) (strip w6)) := rfl

theorem decodeSetup_short (c : Config) {ws : List Word} (h : ws.length < 7) :
    decodeSetup c ws = .wait (7 - ws.length) := by
  unfold decodeSetup
  split
  · simp at h
    omega
  · rfl

theorem decodeVend_cons (c : Config) (w0 w1 : Word) (ws : List Word) :
    decodeVend c (w0 :: w1 :: ws) = decodeVendSub c (strip w1) ws := rfl

theorem decodeReader_cons (c : Config) (w0 w1 : Word) (ws : List Word) :
    decodeReader c (w0 :: w1 :: ws) = .frame (readerInstr c (strip w1)) := rfl

/-- Everything `decodeVendSub` answers for a subcommand that is neither REQUEST nor SUCCESS. -/
theorem decodeVendSub_short_frame {c : Config} {sub : Byte} (ws : List Word) (h1 : sub ≠ c.subVendRequest)
    (h2 : sub ≠ c.subVendSuccess) : ∃ i : Instr,
    decodeVendSub c sub ws = .frame i ∧ i.receivedChecksum = none ∧ i.consumed = 2 := by
  unfold decodeVendSub
  rw [if_neg h1]
  repeat' split
  all_goals exact ⟨_, rfl, rfl, rfl⟩

/-- A SETUP instruction consumes seven words whatever its subcommand (R82). -/
theorem consumed_setupInstr (c : Config) (b1 b2 b3 b4 b5 b6 : Byte) :
    (setupInstr c b1 b2 b3 b4 b5 b6).consumed = 7 := by
  unfold setupInstr
  repeat' split
  all_goals rfl

/-- A READER instruction consumes two words whatever its subcommand (R110). -/
theorem consumed_readerInstr (c : Config) (b1 : Byte) : (readerInstr c b1).consumed = 2 := by
  unfold readerInstr
  repeat' split
  all_goals rfl

end Sys2Proof
end

