-- ==== Sys2Proof/Laws/State.lean ====
section
/-! SUPPORT. One lemma per field per update of State, and the fields of the power-up state. -/

namespace Sys2Proof.Machine

@[simp] theorem State.withDc_cfg (s : State) (v : DisplayConfig) : (s.withDc v).cfg = s.cfg := rfl
@[simp] theorem State.withDc_dc (s : State) (v : DisplayConfig) : (s.withDc v).dc = v := rfl
@[simp] theorem State.withDc_pl (s : State) (v : DisplayConfig) : (s.withDc v).pl = s.pl := rfl
@[simp] theorem State.withDc_rs (s : State) (v : DisplayConfig) : (s.withDc v).rs = s.rs := rfl
@[simp] theorem State.withDc_pe (s : State) (v : DisplayConfig) : (s.withDc v).pe = s.pe := rfl
@[simp] theorem State.withDc_rxq (s : State) (v : DisplayConfig) : (s.withDc v).rxq = s.rxq := rfl
@[simp] theorem State.withDc_txq (s : State) (v : DisplayConfig) : (s.withDc v).txq = s.txq := rfl
@[simp] theorem State.withDc_drawCount (s : State) (v : DisplayConfig) : (s.withDc v).drawCount = s.drawCount := rfl

@[simp] theorem State.withPl_cfg (s : State) (v : PriceLimits) : (s.withPl v).cfg = s.cfg := rfl
@[simp] theorem State.withPl_dc (s : State) (v : PriceLimits) : (s.withPl v).dc = s.dc := rfl
@[simp] theorem State.withPl_pl (s : State) (v : PriceLimits) : (s.withPl v).pl = v := rfl
@[simp] theorem State.withPl_rs (s : State) (v : PriceLimits) : (s.withPl v).rs = s.rs := rfl
@[simp] theorem State.withPl_pe (s : State) (v : PriceLimits) : (s.withPl v).pe = s.pe := rfl
@[simp] theorem State.withPl_rxq (s : State) (v : PriceLimits) : (s.withPl v).rxq = s.rxq := rfl
@[simp] theorem State.withPl_txq (s : State) (v : PriceLimits) : (s.withPl v).txq = s.txq := rfl
@[simp] theorem State.withPl_drawCount (s : State) (v : PriceLimits) : (s.withPl v).drawCount = s.drawCount := rfl

@[simp] theorem State.withRs_cfg (s : State) (v : ReaderState) : (s.withRs v).cfg = s.cfg := rfl
@[simp] theorem State.withRs_dc (s : State) (v : ReaderState) : (s.withRs v).dc = s.dc := rfl
@[simp] theorem State.withRs_pl (s : State) (v : ReaderState) : (s.withRs v).pl = s.pl := rfl
@[simp] theorem State.withRs_rs (s : State) (v : ReaderState) : (s.withRs v).rs = v := rfl
@[simp] theorem State.withRs_pe (s : State) (v : ReaderState) : (s.withRs v).pe = s.pe := rfl
@[simp] theorem State.withRs_rxq (s : State) (v : ReaderState) : (s.withRs v).rxq = s.rxq := rfl
@[simp] theorem State.withRs_txq (s : State) (v : ReaderState) : (s.withRs v).txq = s.txq := rfl
@[simp] theorem State.withRs_drawCount (s : State) (v : ReaderState) : (s.withRs v).drawCount = s.drawCount := rfl

@[simp] theorem State.withPe_cfg (s : State) (v : PollEvent) : (s.withPe v).cfg = s.cfg := rfl
@[simp] theorem State.withPe_dc (s : State) (v : PollEvent) : (s.withPe v).dc = s.dc := rfl
@[simp] theorem State.withPe_pl (s : State) (v : PollEvent) : (s.withPe v).pl = s.pl := rfl
@[simp] theorem State.withPe_rs (s : State) (v : PollEvent) : (s.withPe v).rs = s.rs := rfl
@[simp] theorem State.withPe_pe (s : State) (v : PollEvent) : (s.withPe v).pe = v := rfl
@[simp] theorem State.withPe_rxq (s : State) (v : PollEvent) : (s.withPe v).rxq = s.rxq := rfl
@[simp] theorem State.withPe_txq (s : State) (v : PollEvent) : (s.withPe v).txq = s.txq := rfl
@[simp] theorem State.withPe_drawCount (s : State) (v : PollEvent) : (s.withPe v).drawCount = s.drawCount := rfl

@[simp] theorem State.withRxq_cfg (s : State) (v : List Word) : (s.withRxq v).cfg = s.cfg := rfl
@[simp] theorem State.withRxq_dc (s : State) (v : List Word) : (s.withRxq v).dc = s.dc := rfl
@[simp] theorem State.withRxq_pl (s : State) (v : List Word) : (s.withRxq v).pl = s.pl := rfl
@[simp] theorem State.withRxq_rs (s : State) (v : List Word) : (s.withRxq v).rs = s.rs := rfl
@[simp] theorem State.withRxq_pe (s : State) (v : List Word) : (s.withRxq v).pe = s.pe := rfl
@[simp] theorem State.withRxq_rxq (s : State) (v : List Word) : (s.withRxq v).rxq = v := rfl
@[simp] theorem State.withRxq_txq (s : State) (v : List Word) : (s.withRxq v).txq = s.txq := rfl
@[simp] theorem State.withRxq_drawCount (s : State) (v : List Word) : (s.withRxq v).drawCount = s.drawCount := rfl

@[simp] theorem State.withTxq_cfg (s : State) (v : List Word) : (s.withTxq v).cfg = s.cfg := rfl
@[simp] theorem State.withTxq_dc (s : State) (v : List Word) : (s.withTxq v).dc = s.dc := rfl
@[simp] theorem State.withTxq_pl (s : State) (v : List Word) : (s.withTxq v).pl = s.pl := rfl
@[simp] theorem State.withTxq_rs (s : State) (v : List Word) : (s.withTxq v).rs = s.rs := rfl
@[simp] theorem State.withTxq_pe (s : State) (v : List Word) : (s.withTxq v).pe = s.pe := rfl
@[simp] theorem State.withTxq_rxq (s : State) (v : List Word) : (s.withTxq v).rxq = s.rxq := rfl
@[simp] theorem State.withTxq_txq (s : State) (v : List Word) : (s.withTxq v).txq = v := rfl
@[simp] theorem State.withTxq_drawCount (s : State) (v : List Word) : (s.withTxq v).drawCount = s.drawCount := rfl

@[simp] theorem State.withDrawCount_cfg (s : State) (v : Nat) : (s.withDrawCount v).cfg = s.cfg := rfl
@[simp] theorem State.withDrawCount_dc (s : State) (v : Nat) : (s.withDrawCount v).dc = s.dc := rfl
@[simp] theorem State.withDrawCount_pl (s : State) (v : Nat) : (s.withDrawCount v).pl = s.pl := rfl
@[simp] theorem State.withDrawCount_rs (s : State) (v : Nat) : (s.withDrawCount v).rs = s.rs := rfl
@[simp] theorem State.withDrawCount_pe (s : State) (v : Nat) : (s.withDrawCount v).pe = s.pe := rfl
@[simp] theorem State.withDrawCount_rxq (s : State) (v : Nat) : (s.withDrawCount v).rxq = s.rxq := rfl
@[simp] theorem State.withDrawCount_txq (s : State) (v : Nat) : (s.withDrawCount v).txq = s.txq := rfl
@[simp] theorem State.withDrawCount_drawCount (s : State) (v : Nat) : (s.withDrawCount v).drawCount = v := rfl

@[simp] theorem State.powerUp_cfg (c : Config) : (State.powerUp c).cfg = c := rfl
@[simp] theorem State.powerUp_dc (c : Config) : (State.powerUp c).dc = ⟨0, 0, 0, 0⟩ := rfl
@[simp] theorem State.powerUp_pl (c : Config) : (State.powerUp c).pl = ⟨0, 0⟩ := rfl
@[simp] theorem State.powerUp_rs (c : Config) : (State.powerUp c).rs = .inactive := rfl
@[simp] theorem State.powerUp_pe (c : Config) : (State.powerUp c).pe = .justReset := rfl
@[simp] theorem State.powerUp_rxq (c : Config) : (State.powerUp c).rxq = [] := rfl
@[simp] theorem State.powerUp_txq (c : Config) : (State.powerUp c).txq = [] := rfl
@[simp] theorem State.powerUp_drawCount (c : Config) : (State.powerUp c).drawCount = 0 := rfl

theorem State.ext_fields {s t : State} (hcfg : s.cfg = t.cfg) (hdc : s.dc = t.dc) (hpl : s.pl = t.pl)
    (hrs : s.rs = t.rs) (hpe : s.pe = t.pe) (hrx : s.rxq = t.rxq) (htx : s.txq = t.txq)
    (hdr : s.drawCount = t.drawCount) : s = t := by
  cases s; cases t; simp_all

end Sys2Proof.Machine
end

