-- ==== Sys2Proof/Laws/Ops.lean ====
section
/-! SUPPORT. What each shared operation can do, said once. -/

namespace Sys2Proof.Machine

@[simp] theorem settle_ok (s : State) : settle (.ok s) = .next s := rfl

@[simp] theorem settle_error (f : Fault) : settle (.error f) = .fault f := rfl

theorem settle_eq_next {r : Except Fault State} {t : State} : settle r = .next t ↔ r = .ok t := by
  cases r <;> simp [settle]

theorem settle_eq_fault {r : Except Fault State} {f : Fault} : settle r = .fault f ↔ r = .error f := by
  cases r <;> simp [settle]

theorem settle_ne_refused (r : Except Fault State) (x : Refusal) : settle r ≠ .refused x := by
  cases r <;> simp [settle]

/-- `RxRead` on a queue that holds a word. -/
theorem rxRead_cons {s : State} {w : Word} {ws : List Word} (h : s.rxq = w :: ws) :
    rxRead s = .ok (w, s.withRxq ws) := by
  simp [rxRead, h]

/-- `RxRead` on an empty queue. -/
theorem rxRead_empty {s : State} (h : s.rxq = []) : rxRead s = .error .rxReadEmpty := by
  simp [rxRead, h]

/-- `RxPeek(i)` within the pending count. -/
theorem rxPeek_of_lt {s : State} {i : Nat} (h : i < s.rxq.length) : rxPeek i s = .ok s.rxq[i] := by
  simp [rxPeek, h]

/-- Everything `readBytes` does where the words are pending: it answers their data bytes and removes them. -/
theorem readBytes_ok (n : Nat) (s : State) (h : n ≤ s.rxq.length) :
    readBytes n s = .ok ((s.rxq.take n).map strip, s.withRxq (s.rxq.drop n)) := by
  induction n generalizing s with
  | zero => rfl
  | succ n ih =>
    obtain ⟨w, ws, hq⟩ : ∃ w ws, s.rxq = w :: ws := by
      cases hs : s.rxq with
      | nil => simp [hs] at h
      | cons w ws => exact ⟨w, ws, rfl⟩
    have hn : n ≤ (s.withRxq ws).rxq.length := by
      rw [State.withRxq_rxq]
      rw [hq, List.length_cons] at h
      omega
    rw [readBytes, rxRead_cons hq]
    simp only [ih _ hn]
    simp [hq, State.withRxq]

/-- `readBytes` where too few words are pending. -/
theorem readBytes_short (n : Nat) (s : State) (h : s.rxq.length < n) :
    readBytes n s = .error .rxReadEmpty := by
  induction n generalizing s with
  | zero => omega
  | succ n ih =>
    cases hq : s.rxq with
    | nil => simp [readBytes, rxRead_empty hq]
    | cons w ws =>
      have hn : (s.withRxq ws).rxq.length < n := by
        rw [State.withRxq_rxq]
        rw [hq, List.length_cons] at h
        omega
      rw [readBytes, rxRead_cons hq]
      simp only [ih _ hn]

theorem consume_ok {n : Nat} {s : State} (h : n ≤ s.rxq.length) :
    consume n s = .ok (s.withRxq (s.rxq.drop n)) := by
  simp [consume, readBytes_ok n s h]

theorem consume_short {n : Nat} {s : State} (h : s.rxq.length < n) :
    consume n s = .error .rxReadEmpty := by
  simp [consume, readBytes_short n s h]

/-- A frame whose words are pending: consumed, then its effect. -/
theorem afterConsuming_ok {n : Nat} {s : State} (k : State → Except Fault State) (h : n ≤ s.rxq.length) :
    afterConsuming n k s = settle (k (s.withRxq (s.rxq.drop n))) := by
  simp [afterConsuming, consume_ok h]

/-- A frame whose words are not pending. -/
theorem afterConsuming_short {n : Nat} {s : State} (k : State → Except Fault State)
    (h : s.rxq.length < n) : afterConsuming n k s = .fault .rxReadEmpty := by
  simp [afterConsuming, consume_short h]

/-- All that a next state of an executed frame can be. -/
theorem afterConsuming_eq_next {n : Nat} {k : State → Except Fault State} {s t : State} :
    afterConsuming n k s = .next t ↔ n ≤ s.rxq.length ∧ k (s.withRxq (s.rxq.drop n)) = .ok t := by
  by_cases h : n ≤ s.rxq.length
  · rw [afterConsuming_ok k h, settle_eq_next]
    exact ⟨fun e => ⟨h, e⟩, fun e => e.2⟩
  · rw [afterConsuming_short k (by omega)]
    simp [h]

/-- All that a fault of an executed frame can be. -/
theorem afterConsuming_eq_fault {n : Nat} {k : State → Except Fault State} {s : State} {f : Fault} :
    afterConsuming n k s = .fault f ↔
      (s.rxq.length < n ∧ f = .rxReadEmpty) ∨
        (n ≤ s.rxq.length ∧ k (s.withRxq (s.rxq.drop n)) = .error f) := by
  by_cases h : n ≤ s.rxq.length
  · rw [afterConsuming_ok k h, settle_eq_fault]
    constructor
    · intro e
      exact .inr ⟨h, e⟩
    · rintro (⟨h', -⟩ | ⟨-, e⟩)
      · omega
      · exact e
  · rw [afterConsuming_short k (by omega)]
    constructor
    · intro e
      cases e
      exact .inl ⟨by omega, rfl⟩
    · rintro (⟨-, rfl⟩ | ⟨h', -⟩)
      · rfl
      · exact absurd h' h

theorem afterConsuming_ne_refused (n : Nat) (k : State → Except Fault State) (s : State) (x : Refusal) :
    afterConsuming n k s ≠ .refused x := settle_ne_refused _ _

/-- Room does not depend on anything but TXQ and its capacity. -/
theorem txRoom_congr {n : Nat} {s t : State} (hc : s.cfg = t.cfg) (hq : s.txq = t.txq) :
    txRoom n s = txRoom n t := by
  simp [txRoom, hc, hq]

theorem txRoom_of_unbounded {s : State} (h : s.cfg.txCapacity = none) (n : Nat) : txRoom n s = true := by
  simp [txRoom, h]

theorem txRoom_mono {m n : Nat} {s : State} (h : m ≤ n) (hr : txRoom n s = true) : txRoom m s = true := by
  unfold txRoom at *
  split at hr
  · simp only [decide_eq_true_eq] at *
    omega
  · rfl

/-- Everything `txWriteAll` does: with room for all the words they are appended in order. -/
theorem txWriteAll_ok (ws : List Word) (s : State) (h : txRoom ws.length s = true) :
    txWriteAll ws s = .ok (s.withTxq (s.txq ++ ws)) := by
  induction ws generalizing s with
  | nil => simp [txWriteAll, State.withTxq]
  | cons w ws ih =>
    have h1 : txRoom 1 s = true := txRoom_mono (by simp) h
    have h2 : txRoom ws.length (s.withTxq (s.txq ++ [w])) = true := by
      simp only [txRoom, State.withTxq_cfg, State.withTxq_txq, List.length_append, List.length_cons,
        List.length_nil] at *
      split at h
      · simp only [decide_eq_true_eq] at *
        omega
      · rfl
    simp only [txWriteAll, txWrite, h1, if_true, ih _ h2]
    simp [State.withTxq]

/-- `txWriteAll` without room for all the words: the fault of R36. -/
theorem txWriteAll_full (ws : List Word) (s : State) (hne : ws ≠ []) (h : txRoom ws.length s = false) :
    txWriteAll ws s = .error .txqFull := by
  induction ws generalizing s with
  | nil => exact absurd rfl hne
  | cons w ws ih =>
    by_cases h1 : txRoom 1 s = true
    · have h2 : txRoom ws.length (s.withTxq (s.txq ++ [w])) = false := by
        simp only [txRoom, State.withTxq_cfg, State.withTxq_txq, List.length_append, List.length_cons,
          List.length_nil] at *
        split at h
        · simp only [decide_eq_false_iff_not] at *
          omega
        · simp at h
      have hws : ws ≠ [] := by
        rintro rfl
        simp only [List.length_cons, List.length_nil, Nat.zero_add] at h
        rw [h1] at h
        cases h
      simp only [txWriteAll, txWrite, h1, if_true, ih _ hws h2]
    · simp [txWriteAll, txWrite, h1]

theorem responseWords_ne_nil {bytes : List Byte} (chk : Bool) (h : bytes ≠ []) :
    responseWords bytes chk ≠ [] := by
  intro e
  have := congrArg List.length e
  rw [length_responseWords] at this
  cases bytes with
  | nil => exact h rfl
  | cons _ _ => simp at this

theorem emit_ok {bytes : List Byte} {chk : Bool} {s : State}
    (h : txRoom (responseWords bytes chk).length s = true) :
    emit bytes chk s = .ok (s.withTxq (s.txq ++ responseWords bytes chk)) :=
  txWriteAll_ok _ _ h

theorem emit_full {bytes : List Byte} {chk : Bool} {s : State} (hne : bytes ≠ [])
    (h : txRoom (responseWords bytes chk).length s = false) : emit bytes chk s = .error .txqFull :=
  txWriteAll_full _ _ (responseWords_ne_nil chk hne) h

/-- All that `emit` can answer with. -/
theorem emit_cases (bytes : List Byte) (chk : Bool) (s : State) (hne : bytes ≠ []) :
    (txRoom (responseWords bytes chk).length s = true ∧
        emit bytes chk s = .ok (s.withTxq (s.txq ++ responseWords bytes chk))) ∨
      (txRoom (responseWords bytes chk).length s = false ∧ emit bytes chk s = .error .txqFull) := by
  cases h : txRoom (responseWords bytes chk).length s
  · exact .inr ⟨rfl, emit_full hne h⟩
  · exact .inl ⟨rfl, emit_ok h⟩

/-- Everything `emit` does when it answers a next state. -/
theorem emit_eq_ok {bytes : List Byte} {chk : Bool} {s t : State} (hne : bytes ≠ []) :
    emit bytes chk s = .ok t ↔
      txRoom (responseWords bytes chk).length s = true ∧
        t = s.withTxq (s.txq ++ responseWords bytes chk) := by
  rcases emit_cases bytes chk s hne with ⟨hr, he⟩ | ⟨hr, he⟩ <;> rw [he, hr] <;> simp [eq_comm]

/-- A response of one byte without checksum is one terminated word. -/
@[simp] theorem responseWords_one (b : Byte) : responseWords [b] false = [terminate b] := rfl

theorem acknowledge_ok {s : State} (h : txRoom 1 s = true) :
    acknowledge s = .ok (s.withTxq (s.txq ++ [terminate s.cfg.rspAck])) := by
  have := emit_ok (bytes := [s.cfg.rspAck]) (chk := false) (s := s) (by simpa using h)
  simpa [acknowledge] using this

@[simp] theorem ifChecksum_true (k : State → Except Fault State) (s : State) :
    ifChecksum true k s = k s := rfl

@[simp] theorem ifChecksum_false (k : State → Except Fault State) (s : State) :
    ifChecksum false k s = .ok s := rfl

theorem decodePollEvent_encode (p : PollEvent) : decodePollEvent (encodePollEvent p) = some p := by
  cases p <;> rfl

end Sys2Proof.Machine
end

