-- ==== Sys2Proof/Laws/PerInstr.lean ====
section
/-! SUPPORT. A family of lemmas, one per instruction: an encoded frame has as many words as the block consumes for it, and one
where the block consumes none (30_encoding.md R42, R46). -/

namespace Sys2Proof.Laws

/-- The encoding of `i` has the frame length of R42. -/
def EncodedLength.Statement (i : Instr) : Prop :=
  ∀ c : Config, (encode c i).length = if i.consumed = 0 then 1 else i.consumed

namespace EncodedLength

theorem reset : Statement .reset := fun c => by simp [encode, Instr.bytes, Instr.body, Instr.receivedChecksum, Instr.consumed]

theorem setupConfig (fl cols rows info chk : Byte) : Statement (.setupConfig fl cols rows info chk) := fun c => by simp [encode, Instr.bytes, Instr.body, Instr.receivedChecksum, Instr.consumed]

theorem setupPrice (max min : Half) (chk : Byte) : Statement (.setupPrice max min chk) := fun c => by simp [encode, Instr.bytes, Instr.body, Instr.receivedChecksum, Instr.consumed]

theorem setupOther (sub p0 p1 p2 p3 chk : Byte) : Statement (.setupOther sub p0 p1 p2 p3 chk) := fun c => by simp [encode, Instr.bytes, Instr.body, Instr.receivedChecksum, Instr.consumed]

theorem poll : Statement .poll := fun c => by simp [encode, Instr.bytes, Instr.body, Instr.receivedChecksum, Instr.consumed]

theorem vendRequest (price item : Half) (chk : Byte) : Statement (.vendRequest price item chk) := fun c => by simp [encode, Instr.bytes, Instr.body, Instr.receivedChecksum, Instr.consumed]

theorem vendCancel : Statement .vendCancel := fun c => by simp [encode, Instr.bytes, Instr.body, Instr.receivedChecksum, Instr.consumed]

theorem vendSuccess (item : Half) (chk : Byte) : Statement (.vendSuccess item chk) := fun c => by simp [encode, Instr.bytes, Instr.body, Instr.receivedChecksum, Instr.consumed]

theorem vendFailure : Statement .vendFailure := fun c => by simp [encode, Instr.bytes, Instr.body, Instr.receivedChecksum, Instr.consumed]

theorem vendSessionComplete : Statement .vendSessionComplete := fun c => by simp [encode, Instr.bytes, Instr.body, Instr.receivedChecksum, Instr.consumed]

theorem vendCashSale : Statement .vendCashSale := fun c => by simp [encode, Instr.bytes, Instr.body, Instr.receivedChecksum, Instr.consumed]

theorem vendOther (sub : Byte) : Statement (.vendOther sub) := fun c => by simp [encode, Instr.bytes, Instr.body, Instr.receivedChecksum, Instr.consumed]

theorem readerDisable : Statement .readerDisable := fun c => by simp [encode, Instr.bytes, Instr.body, Instr.receivedChecksum, Instr.consumed]

theorem readerEnable : Statement .readerEnable := fun c => by simp [encode, Instr.bytes, Instr.body, Instr.receivedChecksum, Instr.consumed]

theorem readerCancel : Statement .readerCancel := fun c => by simp [encode, Instr.bytes, Instr.body, Instr.receivedChecksum, Instr.consumed]

theorem readerOther (sub : Byte) : Statement (.readerOther sub) := fun c => by simp [encode, Instr.bytes, Instr.body, Instr.receivedChecksum, Instr.consumed]

theorem expansion : Statement .expansion := fun c => by simp [encode, Instr.bytes, Instr.body, Instr.receivedChecksum, Instr.consumed]

theorem unknown (b : Byte) : Statement (.unknown b) := fun c => by simp [encode, Instr.bytes, Instr.body, Instr.receivedChecksum, Instr.consumed]

end EncodedLength

end Sys2Proof.Laws
end

