-- ==== Sys2Proof/Tests/Slice0.lean ====
section
/-! SUPPORT. Tests. Expected results come from the spec: 95_test_vectors.md (V-… and E…), the encoding tables of
30_encoding.md, and hand computation from the rules where a comment says so. The codes are those of EX. -/

namespace Sys2Proof.Tests

open Sys2Proof Sys2Proof.Machine

/-- S0 of 95_test_vectors.md with pending words. -/
def s0 (rx : List Word) : State := (State.powerUp Config.ex).withRxq rx

/-- S0 with a TXQ of `k` words that is filled by `used` words. -/
def bounded (k used : Nat) (rx : List Word) : State :=
  ((State.powerUp { Config.ex with txCapacity := some k }).withRxq rx).withTxq (List.replicate used 0x100)

/-- The next state, if the step answers one. -/
def next? : StepResult → Option State
  | .next s => some s
  | .fault _ => none
  | .refused _ => none

/-! ### Well-formedness refuses ill-formed terms -/

theorem test_wf_refuses_setupOther : Instr.wf Config.ex (.setupOther 0x01 0 0 0 0 0) = false := by decide
theorem test_wf_refuses_vendOther : Instr.wf Config.ex (.vendOther 0x05) = false := by decide
theorem test_wf_refuses_readerOther : Instr.wf Config.ex (.readerOther 0x02) = false := by decide
theorem test_wf_refuses_unknown : Instr.wf Config.ex (.unknown 0x17) = false := by decide
theorem test_wf_accepts : Instr.wf Config.ex (.setupOther 0x07 0 0 0 0 0) = true ∧
    Instr.wf Config.ex (.vendOther 0x09) = true ∧ Instr.wf Config.ex (.readerOther 0x03) = true ∧
    Instr.wf Config.ex (.unknown 0xAA) = true := by decide
theorem test_config_wf : Config.ex.wf = true ∧ { Config.ex with cmdPoll := 0x10 }.wf = false ∧
    { Config.ex with subSetupPrice := 0x00 }.wf = false ∧ { Config.ex with subVendCashSale := 0x00 }.wf = false ∧
    { Config.ex with subReaderCancel := 0x01 }.wf = false := by decide

/-! ### Decoding: words written out from 30_encoding.md (command byte with the mode bit, then data bytes) -/

theorem test_decode_reset : decode Config.ex [0x110] = .frame .reset := by decide
theorem test_decode_setupConfig : decode Config.ex [0x111, 0x000, 0x003, 0x002, 0x001, 0x000, 0x017] =
    .frame (.setupConfig 0x03 0x02 0x01 0x00 0x17) := by decide
theorem test_decode_setupPrice : decode Config.ex [0x111, 0x001, 0x012, 0x034, 0x000, 0x005, 0x05D] =
    .frame (.setupPrice 0x1234 0x0005 0x5D) := by decide
theorem test_decode_setupOther : decode Config.ex [0x111, 0x007, 0x000, 0x000, 0x000, 0x000, 0x018] =
    .frame (.setupOther 0x07 0 0 0 0 0x18) := by decide
theorem test_decode_poll : decode Config.ex [0x112] = .frame .poll := by decide
theorem test_decode_vendRequest : decode Config.ex [0x113, 0x000, 0x000, 0x064, 0x000, 0x007, 0x07E] =
    .frame (.vendRequest 0x0064 0x0007 0x7E) := by decide
theorem test_decode_vendCancel : decode Config.ex [0x113, 0x001] = .frame .vendCancel := by decide
theorem test_decode_vendSuccess : decode Config.ex [0x113, 0x002, 0x000, 0x007, 0x01C] =
    .frame (.vendSuccess 0x0007 0x1C) := by decide
theorem test_decode_vendFailure : decode Config.ex [0x113, 0x003] = .frame .vendFailure := by decide
theorem test_decode_vendSessionComplete : decode Config.ex [0x113, 0x004] = .frame .vendSessionComplete := by decide
theorem test_decode_vendCashSale : decode Config.ex [0x113, 0x005] = .frame .vendCashSale := by decide
theorem test_decode_vendOther : decode Config.ex [0x113, 0x009] = .frame (.vendOther 0x09) := by decide
theorem test_decode_readerDisable : decode Config.ex [0x114, 0x000] = .frame .readerDisable := by decide
theorem test_decode_readerEnable : decode Config.ex [0x114, 0x001] = .frame .readerEnable := by decide
theorem test_decode_readerCancel : decode Config.ex [0x114, 0x002] = .frame .readerCancel := by decide
theorem test_decode_readerOther : decode Config.ex [0x114, 0x003] = .frame (.readerOther 0x03) := by decide
theorem test_decode_expansion : decode Config.ex [0x117] = .frame .expansion := by decide
theorem test_decode_unknown : decode Config.ex [0x0AA, 0x110] = .frame (.unknown 0xAA) := by decide

/-- R74 and the waits of V-S2, V-S12, V-V4, V-V5, V-V11, V-V18, V-RD5. -/
theorem test_decode_waits : decode Config.ex [0x111, 0x000, 0x003, 0x002, 0x001, 0x000] = .wait 1 ∧
    decode Config.ex [0x111] = .wait 6 ∧ decode Config.ex [0x113] = .wait 1 ∧
    decode Config.ex [0x113, 0x000, 0x000, 0x064, 0x000, 0x007] = .wait 1 ∧
    decode Config.ex [0x113, 0x002, 0x000, 0x007] = .wait 1 ∧ decode Config.ex [0x113, 0x002] = .wait 3 ∧
    decode Config.ex [0x114] = .wait 1 ∧ decode Config.ex [] = .empty := by decide

/-- A byte written big-endian in two words is not the same read little-endian. -/
theorem test_encode_bytes : encode Config.ex (.vendSuccess 0x1234 0x5B) = [0x113, 0x002, 0x012, 0x034, 0x05B] := by
  decide

/-- spec/opcode_table.json: the match words of its rows; an "other" row applies when no more specific row matches. -/
theorem test_table_words : decodeTableWord 16 0x1000 = some .reset ∧
    decodeTableWord 16 0x1100 = some (.setupConfig 0 0 0 0 0) ∧ decodeTableWord 16 0x1101 = some (.setupPrice 0 0 0) ∧
    decodeTableWord 16 0x1180 = some (.setupOther 0x80 0 0 0 0 0) ∧ decodeTableWord 16 0x1200 = some .poll ∧
    decodeTableWord 16 0x1300 = some (.vendRequest 0 0 0) ∧ decodeTableWord 16 0x1301 = some .vendCancel ∧
    decodeTableWord 16 0x1302 = some (.vendSuccess 0 0) ∧ decodeTableWord 16 0x1306 = some (.vendOther 0x06) ∧
    decodeTableWord 16 0x1402 = some .readerCancel ∧ decodeTableWord 16 0x1404 = some (.readerOther 0x04) ∧
    decodeTableWord 16 0x1700 = some .expansion ∧ decodeTableWord 16 0xAA00 = some (.unknown 0xAA) := by decide

/-! ### The codec (V-C1 to V-C24) -/

theorem test_strip : strip 0x111 = 0x11 ∧ strip 0x011 = 0x11 ∧ strip 0x1FF = 0xFF ∧ strip 0x000 = 0x00 := by decide
theorem test_checksum : checksum [] = 0x00 ∧ checksum [0xFF, 0x01] = 0x00 ∧ checksum [0x80, 0x80, 0x01] = 0x01 ∧
    checksum [0xFF, 0xFF, 0xFF, 0xFF, 0xFF, 0xFF] = 0xFA ∧ checksum Config.ex.identity.bytes = 0x62 := by decide
theorem test_validate : validate [0x111, 0x000, 0x003, 0x002, 0x001, 0x000, 0x117] = true ∧
    validate [0x111, 0x100, 0x103, 0x102, 0x101, 0x100, 0x017] = true ∧
    validate [0x111, 0x000, 0x003, 0x002, 0x001, 0x000, 0x018] = false ∧
    validate [0x111, 0x001, 0x080, 0x06E, 0x000, 0x000, 0x000] = true := by decide
theorem test_terminate : terminate 0x00 = 0x100 ∧ terminate 0xFF = 0x1FF ∧ terminate 0x62 = 0x162 := by decide
theorem test_emit : responseWords [0x00] false = [0x100] ∧ responseWords [0x01, 0x02] true = [0x001, 0x002, 0x103] ∧
    responseWords [0xFF, 0x01] true = [0x0FF, 0x001, 0x100] ∧
    responseWords [0x05, 0xAB, 0xCD] false = [0x005, 0x0AB, 0x1CD] := by decide

/-! ### One step per instruction -/

/-- V-R1. -/
theorem test_step_reset : (next? (step ((((s0 [0x110]).withDc ⟨3, 2, 1, 0⟩).withRs .enabled).withPe .vendApproved))).map
    (fun t => (t.dc, t.rs, t.pe, t.txq)) = some (⟨0, 0, 0, 0⟩, .inactive, .justReset, [0x100]) := by decide
/-- V-R2: only one frame runs. -/
theorem test_step_reset_one : (next? (step (s0 [0x010, 0x112]))).map State.rxq = some [0x112] := by decide
/-- V-S4. -/
theorem test_step_setupConfig : (next? (step (s0 [0x111, 0x000, 0x003, 0x002, 0x001, 0x000, 0x017, 0x112]))).map
    (fun t => (t.dc, t.rxq, t.txq)) = some (⟨3, 2, 1, 0⟩, [0x112],
      [0x001, 0x001, 0x018, 0x040, 0x001, 0x002, 0x005, 0x000, 0x162]) := by decide
/-- V-S3. -/
theorem test_step_setupConfig_bad : step (s0 [0x111, 0x000, 0x003, 0x002, 0x001, 0x000, 0x018]) = .next (s0 []) := by rfl
/-- V-S5. -/
theorem test_step_setupPrice :
    (next? (step ((s0 [0x111, 0x001, 0x012, 0x034, 0x000, 0x005, 0x05D]).withRs .enabled))).map
      (fun t => (t.pl, t.rs, t.txq)) = some (⟨0x1234, 0x0005⟩, .disabled, [0x100]) := by decide
/-- V-S7. -/
theorem test_step_setupPrice_bad : step (s0 [0x111, 0x001, 0x000, 0x005, 0x012, 0x034, 0x05E]) = .next (s0 []) := by rfl
/-- V-S8. -/
theorem test_step_setupOther : step (s0 [0x111, 0x007, 0x000, 0x000, 0x000, 0x000, 0x018]) = .next (s0 []) := by rfl
/-- V-P2. -/
theorem test_step_poll : (next? (step (s0 [0x112]))).map (fun t => (t.pe, t.txq)) =
    some (.none, [0x000, 0x100]) := by decide
/-- V-P4. -/
theorem test_step_poll_begin : (next? (step ((s0 [0x112]).withPe .beginSession))).map (fun t => (t.pe, t.txq)) =
    some (.none, [0x003, 0x001, 0x002, 0x106]) := by decide
/-- V-P15 and V-P20 (its length, from R92), for given draws. -/
theorem test_poll_display : (pollResponse Config.ex ⟨3, 2, 1, 0⟩ (fun i => if i = 0 then 0x41 else 0x42) 0 .displayRequest
    = ([0x02, 0x1E, 0x41, 0x42], false)) ∧ displayLength ⟨3, 255, 255, 0⟩ = 32 ∧ displayLength ⟨3, 16, 0, 0⟩ = 0 := by
  decide
/-- V-P13, for a given draw. -/
theorem test_poll_approved : pollResponse Config.ex ⟨0, 0, 0, 0⟩ (fun _ => 0) 0xABCD .vendApproved =
    ([0x05, 0xAB, 0xCD], false) := by decide
/-- V-V1 and V-V2, for given answers. -/
theorem test_vendRequest_answers :
    effectVendRequestWith .approve (s0 []) = .ok ((s0 []).withPe .vendApproved) ∧
      effectVendRequestWith .deny (s0 []) = .ok ((s0 []).withPe .vendDenied) := ⟨rfl, rfl⟩
/-- V-V6, less the answer: no response, all seven words consumed. -/
theorem test_step_vendRequest : (next? (step (s0 [0x113, 0x000, 0x0FF, 0x0FF, 0x0FF, 0x0FF, 0x00F]))).map
    (fun t => (t.rxq, t.txq, t.drawCount)) = some ([], [], 1) := by decide
/-- V-V9. -/
theorem test_step_vendCancel : (next? (step (s0 [0x113, 0x001]))).map (fun t => (t.rs, t.pe, t.txq)) =
    some (.sessionIdle, .justReset, [0x106]) := by decide
/-- V-V10. -/
theorem test_step_vendSuccess : (next? (step (s0 [0x113, 0x002, 0x000, 0x007, 0x01C]))).map
    (fun t => (t.rs, t.rxq, t.txq)) = some (.inactive, [], [0x100]) := by decide
/-- V-V12. -/
theorem test_step_vendSuccess_bad : step (s0 [0x113, 0x002, 0x000, 0x007, 0x01D]) = .next (s0 []) := by rfl
/-- V-V13. -/
theorem test_step_vendFailure : step (s0 [0x113, 0x003]) = .next ((s0 []).withTxq [0x100]) := by rfl
/-- V-V15. -/
theorem test_step_vendSessionComplete : (next? (step ((s0 [0x113, 0x004]).withPe .none))).map
    (fun t => (t.rs, t.pe, t.txq)) = some (.enabled, .none, [0x107]) := by decide
/-- V-V16: the payload stays behind. -/
theorem test_step_vendCashSale : step (s0 [0x113, 0x005, 0x000, 0x007, 0x000, 0x064, 0x07E]) =
    .next (s0 [0x000, 0x007, 0x000, 0x064, 0x07E]) := by rfl
/-- V-V17. -/
theorem test_step_vendOther : step (s0 [0x113, 0x009]) = .next (s0 []) := by rfl
/-- V-RD7. -/
theorem test_step_readerDisable : (next? (step (((s0 [0x114, 0x000]).withRs .sessionIdle).withPe .vendApproved))).map
    (fun t => (t.rs, t.pe, t.txq)) = some (.disabled, .vendApproved, [0x100]) := by decide
/-- V-RD6. -/
theorem test_step_readerEnable : (next? (step (s0 [0x114, 0x001, 0x015]))).map (fun t => (t.rs, t.rxq, t.txq)) =
    some (.enabled, [0x015], [0x100]) := by decide
/-- V-RD3. -/
theorem test_step_readerCancel : (next? (step ((s0 [0x114, 0x002]).withRs .sessionIdle))).map
    (fun t => (t.rs, t.txq)) = some (.sessionIdle, [0x108]) := by decide
/-- V-RD4. -/
theorem test_step_readerOther : step (s0 [0x114, 0x003]) = .next (s0 []) := by rfl
/-- V-D2. -/
theorem test_step_expansion : step (s0 [0x117]) = .next (s0 [0x117]) := by rfl
/-- V-D3. -/
theorem test_step_unknown : step (s0 [0x0AA, 0x110]) = .next (s0 [0x0AA, 0x110]) := by rfl

/-- The first instruction after reset, through the host's fetch word: POLL (V-P2). -/
theorem test_withFetchWord : (next? (step (State.reset.withFetchWord 16 0x1200))).map State.txq =
    some [0x000, 0x100] := by decide

/-! ### Witnesses: for each obligation with hypotheses, a state and operands that meet them, clause by clause -/

theorem witness_ValidateExcludesLastWord : ([0x111] : List Word) ≠ [] ∧
    (Instr.vendSuccess 7 0x1C).receivedChecksum ≠ none := by decide

theorem witness_EmitAppendsTerminatedResponse : ([0x01, 0x02] : List Byte) ≠ [] ∧
    ([0x01, 0x02] : List Byte) ++ [checksum [0x01, 0x02]] = [0x01, 0x02] ++ [0x03] ∧
    ([0x01] : List Byte) = [] ++ [0x01] ∧ txRoom (2 + 1) (bounded 5 2 []) = true ∧
    txRoom (2 + 1) (bounded 4 2 []) = false ∧ txRoom (0 + 1) (bounded 1 0 []) = true ∧
    txRoom (0 + 1) (bounded 1 1 []) = false := by decide

theorem witness_ResetClearsRegisters : 1 ≤ (bounded 1 0 [0x110]).rxq.length ∧
    txRoom 1 (bounded 1 0 [0x110]) = true := by decide

theorem witness_SetupConfigLoadsDisplay :
    let s := bounded 9 0 [0x111, 0x000, 0x003, 0x002, 0x001, 0x000, 0x017]
    7 ≤ s.rxq.length ∧ txRoom 9 s = true ∧ (0x17 : Byte) = checksum [s.cfg.cmdSetup, 0x00, 3, 2, 1, 0] ∧
      s.cfg.wf = true ∧ (s.rxq.take 7).map strip = [s.cfg.cmdSetup, 0x00, 3, 2, 1, 0, 0x17] := by decide

theorem witness_SetupPriceLoadsLimits :
    let s := bounded 1 0 [0x111, 0x001, 0x012, 0x034, 0x000, 0x005, 0x05D]
    7 ≤ s.rxq.length ∧ txRoom 1 s = true ∧
      (0x5D : Byte) = checksum [s.cfg.cmdSetup, s.cfg.subSetupPrice, highByte 0x1234, lowByte 0x1234, highByte 0x0005,
        lowByte 0x0005] := by decide

theorem witness_SetupOtherIsSilent : 7 ≤ (s0 [0x111, 0x007, 0x000, 0x000, 0x000, 0x000, 0x018]).rxq.length ∧
    checksum [Config.ex.cmdSetup, 0x07, 0, 0, 0, 0] = 0x18 ∧ checksum [Config.ex.cmdSetup, 0x07, 0, 0, 0, 0] ≠ 0x19 ∧
    Config.ex.wf = true ∧ (0x07 : Byte) ≠ 0x00 ∧ 0x07 ≠ Config.ex.subSetupPrice ∧
    ((s0 [0x111, 0x007, 0x000, 0x000, 0x000, 0x000, 0x018]).rxq.take 7).map strip =
      [Config.ex.cmdSetup, 0x07, 0, 0, 0, 0, 0x18] := by decide

theorem witness_PollJustResetResponse :
    let s := bounded 2 0 [0x112]
    1 ≤ s.rxq.length ∧ txRoom 2 s = true ∧ s.pe = .justReset := by decide

theorem witness_PollReaderConfigResponse :
    let s := (bounded 9 0 [0x112]).withPe .readerConfig
    1 ≤ s.rxq.length ∧ txRoom 9 s = true ∧ s.pe = .readerConfig ∧ s.cfg.identity.readerConfig = s.cfg.evReaderConfig ∧
      Instr.checksumGood s.cfg (.setupConfig 3 2 1 0 0x17) = true := by decide

theorem witness_PollDisplayRequestResponse :
    let s (cols rows : Byte) := ((bounded 34 0 [0x112]).withPe .displayRequest).withDc ⟨3, cols, rows, 0⟩
    let ok (s : State) := 1 ≤ s.rxq.length ∧ s.pe = .displayRequest ∧
      txRoom (2 + min (s.dc.columns.toNat * s.dc.rows.toNat) 32) s = true
    ok (s 0 4) ∧ ok (s 16 2) ∧ ok (s 255 255) := by decide

theorem witness_PollBeginSessionResponse :
    let s := (bounded 4 0 [0x112]).withPe .beginSession
    1 ≤ s.rxq.length ∧ txRoom 4 s = true ∧ s.pe = .beginSession := by decide

theorem witness_PollBareEventResponse :
    ∀ x ∈ [(PollEvent.sessionCancelRequest, (0x04 : Byte)), (.vendDenied, 0x06), (.endSession, 0x07), (.cancelled, 0x08),
        (.peripheralId, 0x09), (.malfunction, 0x0A), (.outOfSequence, 0x0B), (.diagnostic, 0xFF), (.none, 0x00)],
      let s := (bounded 1 0 [0x112]).withPe x.1
      1 ≤ s.rxq.length ∧ txRoom 1 s = true ∧
        (s.pe = .sessionCancelRequest ∧ x.2 = s.cfg.evSessionCancelRequest ∨
          s.pe = .vendDenied ∧ x.2 = s.cfg.evVendDenied ∨ s.pe = .endSession ∧ x.2 = s.cfg.evEndSession ∨
          s.pe = .cancelled ∧ x.2 = s.cfg.evCancelled ∨ s.pe = .peripheralId ∧ x.2 = s.cfg.evPeripheralId ∨
          s.pe = .malfunction ∧ x.2 = s.cfg.evMalfunction ∨ s.pe = .outOfSequence ∧ x.2 = s.cfg.evOutOfSequence ∨
          s.pe = .diagnostic ∧ x.2 = s.cfg.evDiagnostic ∨ s.pe = .none ∧ x.2 = s.cfg.rspAck) := by decide

theorem witness_PollVendApprovedResponse :
    let s := (bounded 3 0 [0x112]).withPe .vendApproved
    1 ≤ s.rxq.length ∧ txRoom 3 s = true ∧ s.pe = .vendApproved := by decide

theorem witness_PollCarriesEveryDraw :
    let s := bounded 34 0 []
    txRoom 34 (s.withPe .displayRequest) = true ∧ txRoom 34 (s.withPe .vendApproved) = true ∧ txRoom 34 s = true ∧
      (s.withPe .displayRequest).pe = .displayRequest ∧ (s.withPe .vendApproved).pe = .vendApproved ∧
      s.pe ≠ .displayRequest ∧ s.pe ≠ .vendApproved := by decide

theorem witness_VendRequestPostsAnswer :
    let s := s0 [0x113, 0x000, 0x000, 0x064, 0x000, 0x007, 0x07E]
    7 ≤ s.rxq.length ∧ (0x7E : Byte) = checksum [s.cfg.cmdVend, s.cfg.subVendRequest, highByte 0x0064, lowByte 0x0064,
      highByte 0x0007, lowByte 0x0007] := by decide

theorem witness_VendSuccessAcknowledges :
    let s := bounded 1 0 [0x113, 0x002, 0x000, 0x007, 0x01C]
    5 ≤ s.rxq.length ∧ txRoom 1 s = true ∧
      (0x1C : Byte) = checksum [s.cfg.cmdVend, s.cfg.subVendSuccess, highByte 0x0007, lowByte 0x0007] := by decide

/-- For VendCancelEndsVend, VendFailureAcknowledges, VendSessionCompleteEnables, VendPlaceholdersAreSilent,
ReaderDisableResult, ReaderEnableResult and ReaderCancelResult. -/
theorem witness_two_word_frames : 2 ≤ (bounded 1 0 [0x113, 0x001]).rxq.length ∧
    txRoom 1 (bounded 1 0 [0x113, 0x001]) = true := by decide

theorem witness_ReaderOtherIsSilent :
    let s := s0 [0x114, 0x003]
    s.cfg.wf = true ∧ s.rxq = 0x114 :: 0x003 :: [] ∧ strip 0x114 = s.cfg.cmdReader ∧
      strip 0x003 ≠ s.cfg.subReaderDisable ∧ strip 0x003 ≠ s.cfg.subReaderEnable ∧
      strip 0x003 ≠ s.cfg.subReaderCancel := by decide

theorem witness_BadChecksumDiscardsFrame :
    Instr.checksumGood Config.ex (.vendSuccess 0x0007 0x1D) = false ∧
      (Instr.vendSuccess 0x0007 0x1D).consumed ≤ (s0 [0x113, 0x002, 0x000, 0x007, 0x01D]).rxq.length ∧
      Instr.checksumGood Config.ex (.setupOther 0x07 0 0 0 0 0x19) = false ∧
      (Instr.setupOther 0x07 0 0 0 0 0x19).consumed ≤
        (s0 [0x111, 0x007, 0x000, 0x000, 0x000, 0x000, 0x019]).rxq.length := by decide

theorem witness_StepRunsDecodedInstruction : (s0 []).cfg.wf = true ∧
    decode (s0 [0x112]).cfg (s0 [0x112]).rxq = .frame .poll ∧ decode (s0 [0x111]).cfg (s0 [0x111]).rxq = .wait 6 ∧
    (s0 []).rxq = [] := by decide

/-- Also for FrameLinesDecode. -/
theorem witness_DecodeOfEncode : Config.ex.wf = true ∧ Instr.wf Config.ex (.vendOther 0xFF) = true ∧
    Instr.wf Config.ex (.setupPrice 0xFFFF 0 0xFF) = true ∧ (Instr.setupPrice 0xFFFF 0 0xFF).receivedChecksum ≠ none := by
  decide

/-- Also for DecodedInstructionIsWellFormed. -/
theorem witness_EncodeOfDecode : decode Config.ex [0x014, 0x1FF, 0x100] = .frame (.readerOther 0xFF) := by decide

theorem witness_SetupHandlerSteps :
    let w0 : Word := 0x111
    Config.ex.wf = true ∧ strip w0 = Config.ex.cmdSetup ∧
      (s0 [w0, 0x000, 0x003, 0x002, 0x001, 0x000]).rxq.length < 7 ∧ (s0 [w0]).rxq.length < 7 ∧
      checksum [strip w0, 0x07, 0, 0, 0, 0] ≠ 0x19 ∧ checksum [strip w0, 0x00, 3, 2, 1, 0] = 0x17 ∧
      checksum [strip w0, 0x01, 0x12, 0x34, 0x00, 0x05] = 0x5D ∧ Config.ex.subSetupPrice = 0x01 ∧
      checksum [strip w0, 0x07, 0, 0, 0, 0] = 0x18 ∧ (0x07 : Byte) ≠ 0x00 ∧ 0x07 ≠ Config.ex.subSetupPrice := by decide

theorem witness_VendWaitsForItsLength :
    strip 0x113 = Config.ex.cmdVend ∧ Config.ex.wf = true ∧ strip 0x000 = Config.ex.subVendRequest ∧
      (s0 [0x113, 0x000, 0x000, 0x064, 0x000, 0x007]).rxq.length < 7 ∧ (s0 [0x113, 0x000]).rxq.length < 7 ∧
      strip 0x002 = Config.ex.subVendSuccess ∧ (s0 [0x113, 0x002, 0x000, 0x007]).rxq.length < 5 ∧
      strip 0x009 ≠ Config.ex.subVendRequest ∧ strip 0x009 ≠ Config.ex.subVendSuccess ∧
      (next? (step (s0 [0x113, 0x009]))).isSome = true := by decide

theorem witness_WaitLastsUntilWordsArrive : decode Config.ex [0x113, 0x002] = .wait 3 ∧
    ([0x000, 0x007] : List Word).length < 3 ∧ decode Config.ex [0x113] = .wait 1 ∧ ([] : List Word).length < 1 := by decide

theorem witness_UnknownHeadIsLeftPending :
    let s := s0 [0x117]
    s.cfg.wf = true ∧ s.rxq = 0x117 :: [] ∧ strip 0x117 ≠ s.cfg.cmdReset ∧ strip 0x117 ≠ s.cfg.cmdSetup ∧
      strip 0x117 ≠ s.cfg.cmdPoll ∧ strip 0x117 ≠ s.cfg.cmdVend ∧ strip 0x117 ≠ s.cfg.cmdReader := by decide

/-- Also for ExecutedFrameQueues, ReaderStateWriters, DisplayAndPriceWriters and PendingEventWriters: RESET answers a next
state, and so do a price frame and a vend request with right checksums. -/
theorem witness_StepRefinesSpecPseudocode : (s0 [0x110]).cfg.wf = true ∧ (next? (exec .reset (s0 [0x110]))).isSome = true ∧
    (next? (exec (.setupPrice 0x1234 0x0005 0x5D) (s0 [0x111, 0x001, 0x012, 0x034, 0x000, 0x005, 0x05D]))).isSome = true ∧
    (next? (exec (.vendRequest 0x0064 0x0007 0x7E)
      (s0 [0x113, 0x000, 0x000, 0x064, 0x000, 0x007, 0x07E]))).isSome = true := by decide

/-- The three cases: just enough words and room, no room, too few words. -/
theorem witness_ExecOutcomeByQueues :
    let s := bounded 3 2 [0x114, 0x002]
    let full := bounded 2 2 [0x114, 0x002]
    Instr.readerCancel.consumed ≤ s.rxq.length ∧ txRoom (replyWords s .readerCancel).length s = true ∧
      Instr.readerCancel.consumed ≤ full.rxq.length ∧ replyWords full .readerCancel ≠ [] ∧
      txRoom (replyWords full .readerCancel).length full = false ∧
      (s0 [0x114]).rxq.length < Instr.readerCancel.consumed ∧ replyWords s .vendCashSale = [] := by decide

theorem witness_PollReportsEventOnce :
    let s := (s0 [0x112, 0x112]).withPe .endSession
    eventCode s.cfg s.pe = some 0x07 ∧
      (next? (exec .poll s)).isSome = true ∧
      ((next? (exec .poll s)).bind (fun t => next? (exec .poll t))).map State.txq = some [0x107, 0x100] := by decide

theorem witness_LabelsSayWhatHappened :
    activationLabel (s0 []) = .idle ∧ activationLabel (s0 [0x117]) = .idle ∧ activationLabel (s0 [0x111]) = .wait 6 ∧
      activationLabel (s0 [0x113, 0x002, 0x000, 0x007, 0x01D]) = .discard ∧
      activationLabel (s0 [0x111, 0x007, 0x000, 0x000, 0x000, 0x000, 0x019]) = .discard ∧
      (s0 [0x114]).atRest = true ∧ (s0 []).atRest = true ∧ (s0 [0x112]).atRest = false := by decide

theorem witness_ArrivalDoesNotDisturbFrame :
    decode (s0 [0x114, 0x001]).cfg (s0 [0x114, 0x001]).rxq = .frame .readerEnable ∧
      (next? (step (s0 [0x114, 0x001]))).isSome = true := by decide

theorem witness_InboundModeBitsAreIgnored :
    ([0x014, 0x101] : List Word).map strip = (s0 [0x114, 0x001]).rxq.map strip ∧
      (next? (step (s0 [0x114, 0x001]))).isSome = true := by decide

/-- For the fault clauses of InboundModeBitsAreIgnored, UnreadRegistersAffectNoOutput and ActivationFaultsOnlyOnFullQueue. -/
theorem witness_step_faults : step (bounded 1 1 [0x110]) = .fault .txqFull ∧ (bounded 1 1 [0x110]).cfg.wf = true := by
  exact ⟨by rfl, by decide⟩

/-- For the next-state clauses of the same; the capacity of EX is unbounded. -/
theorem witness_step_next : (next? (step (s0 [0x110]))).isSome = true ∧ (s0 [0x110]).cfg.txCapacity = none ∧
    (s0 [0x110]).cfg.wf = true := by decide

theorem witness_StepRefusesIllFormedConfig :
    (State.powerUp { Config.ex with cmdPoll := 0x10 }).cfg.wf = false ∧
      step (State.powerUp { Config.ex with cmdPoll := 0x10 }) = .refused .illFormedConfig := by
  exact ⟨by decide, by rfl⟩

/-- Also for SoundAtPowerUp (its first clause) and HostRunKeepsSound. -/
theorem witness_StepKeepsSound : (bounded 3 2 [0x114, 0x001]).sound = true ∧
    (next? (step (bounded 3 2 [0x114, 0x001]))).isSome = true ∧ (bounded 2 3 []).sound = false ∧
    ((s0 []).withTxq [0x100, 0x001]).sound = false := by decide

theorem witness_HostRunKeepsSound :
    (next? (runHost [.arrive 0x112, .activate, .drain, .postEvent 4, .powerUp, .observe] (s0 []))).isSome = true := by
  decide

theorem witness_UnknownHeadStallsForever :
    (s0 [0x115, 0x112]).stalled = true ∧ (s0 [0x112]).stalled = false ∧ (s0 []).stalled = false ∧
      HostAction.powerUp ∉ [HostAction.arrive 0x110, .activate, .postEvent 9, .drain] ∧
      (next? (runHost [.arrive 0x110, .activate, .postEvent 9, .drain] (s0 [0x115, 0x112]))).isSome = true := by decide

theorem witness_HostInteractionEffects :
    let full : State := (State.powerUp { Config.ex with rxCapacity := some 1 }).withRxq [0x110]
    (s0 []).cfg.wf = true ∧ rxRoom (s0 []) = true ∧ full.cfg.wf = true ∧ rxRoom full = false ∧
      14 ≤ (14#4).toNat ∧ decodePollEvent 13 = some .diagnostic := by decide

theorem witness_TrailingChecksumStaysPending :
    Instr.wf Config.ex .readerEnable = true ∧ Instr.readerEnable.receivedChecksum = none ∧ 0 < Instr.readerEnable.consumed ∧
      (s0 [0x114, 0x001, 0x015]).rxq = (FrameLine.trailingChecksum .readerEnable).words Config.ex ++ [] ∧
      (next? (step (s0 [0x114, 0x001, 0x015]))).isSome = true := by decide

end Sys2Proof.Tests
end

-- The checksum of the frame codec (40_codec.md R56): truncating once and truncating at every addition.
section
namespace Sys2Proof.Machine

@[simp] theorem toNat_checksum (l : List Byte) : (checksum l).toNat = (l.map BitVec.toNat).sum % 256 :=
  BitVec.toNat_ofNat _ 8

/-- The accumulator form of R56's remark: eight-bit additions may be regrouped. -/
theorem foldl_add_eq_add_checksum (l : List Byte) (a : Byte) : l.foldl (fun x y => x + y) a = a + checksum l := by
  induction l generalizing a with
  | nil => simp
  | cons b l ih =>
    calc (b :: l).foldl (fun x y => x + y) a
      _ = a + b + checksum l := ih (a + b)
      _ = a + checksum (b :: l) := by rw [checksum_cons, BitVec.add_assoc]

theorem foldl_add_eq_checksum (l : List Byte) : l.foldl (fun x y => x + y) 0 = checksum l := by
  rw [foldl_add_eq_add_checksum]
  exact BitVec.zero_add _

@[simp] theorem checksum_singleton (b : Byte) : checksum [b] = b := by
  rw [checksum_cons, checksum_nil]
  exact BitVec.add_zero _

theorem toNat_checksum_replicate (n : Nat) (b : Byte) : (checksum (List.replicate n b)).toNat = n * b.toNat % 256 := by
  rw [toNat_checksum, List.map_replicate, List.sum_replicate, smul_eq_mul]

/-- R56's corner case: 256 copies of a byte sum to a multiple of 256. -/
theorem checksum_replicate_256 (b : Byte) : checksum (List.replicate 256 b) = 0 := by
  apply BitVec.eq_of_toNat_eq
  rw [toNat_checksum_replicate, Nat.mul_mod_right]
  rfl

/-- Settles O2: the exact sum is the definition's, and eight-bit additions reach it by induction on the list. -/
theorem checksumTruncatesOnceOrEachTime : Obligations.ChecksumTruncatesOnceOrEachTime := fun l =>
  ⟨toNat_checksum l, foldl_add_eq_checksum l, checksum_nil, fun b => ⟨checksum_singleton b, checksum_replicate_256 b⟩⟩

end Sys2Proof.Machine
end

-- The step and its label from what the decoder found, and what every executed frame has in common (41_dispatcher.md R70 to R74).
section
namespace Sys2Proof.Machine

theorem step_of_decode_wait {s : State} {n : Nat} (hc : s.cfg.wf = true) (hd : decode s.cfg s.rxq = .wait n) :
    step s = .next s := by
  simp [step, hc, hd]

theorem step_of_decode_frame {s : State} {i : Instr} (hc : s.cfg.wf = true) (hd : decode s.cfg s.rxq = .frame i) :
    step s = exec i s := by
  simp [step, hc, hd]

theorem activationLabel_of_decode {s : State} {d : Decoded} (hd : decode s.cfg s.rxq = d) :
    activationLabel s = decodedLabel s.cfg d := by
  rw [activationLabel, hd]

theorem instrLabel_of_consumed {c : Config} {i : Instr} (h : i.consumed ≠ 0) :
    instrLabel c i = if i.checksumGood c then .done else .discard :=
  if_neg h

/-- The one shape of all meanings: consume the frame, test its checksum, then an effect. For a frame without checksum the test
passes; EXPANSION and an unknown head byte consume no word. -/
theorem exec_eq_afterConsuming (i : Instr) : ∃ k : State → Except Fault State,
    ∀ s, exec i s = afterConsuming i.consumed (ifChecksum (i.checksumGood s.cfg) k) s := by
  cases i
  case expansion => exact ⟨.ok, fun _ => rfl⟩
  case unknown => exact ⟨.ok, fun _ => rfl⟩
  all_goals exact ⟨_, fun _ => rfl⟩

/-- A wrong checksum (R57): the frame's words are removed and nothing else happens. -/
theorem exec_of_checksum_bad {i : Instr} {s : State} (hq : i.consumed ≤ s.rxq.length)
    (hbad : i.checksumGood s.cfg = false) : exec i s = .next (s.withRxq (s.rxq.drop i.consumed)) := by
  obtain ⟨k, hk⟩ := exec_eq_afterConsuming i
  rw [hk, afterConsuming_ok _ hq, hbad, ifChecksum_false, settle_ok]

/-- An effect that does not touch RXQ: the executed frame removes exactly its own words. -/
theorem rxq_of_afterConsuming {n : Nat} {good : Bool} {k : State → Except Fault State} {s t : State}
    (hk : ∀ u v : State, k u = .ok v → v.rxq = u.rxq) (h : afterConsuming n (ifChecksum good k) s = .next t) :
    t.rxq = s.rxq.drop n := by
  obtain ⟨-, hok⟩ := afterConsuming_eq_next.1 h
  cases good with
  | true => exact hk _ _ hok
  | false => cases hok; rfl

end Sys2Proof.Machine
end

-- SETUP (42_reset_setup.md R82 to R85): its decoding, its checksum, and the effects of its subcommands.
section
namespace Sys2Proof.Machine

@[simp] theorem setupInstr_config (c : Config) (b2 b3 b4 b5 b6 : Byte) :
    setupInstr c 0x00 b2 b3 b4 b5 b6 = .setupConfig b2 b3 b4 b5 b6 := rfl

theorem setupInstr_price {c : Config} (hc : c.wf = true) (b2 b3 b4 b5 b6 : Byte) :
    setupInstr c c.subSetupPrice b2 b3 b4 b5 b6 = .setupPrice (be16 b2 b3) (be16 b4 b5) b6 := by
  rw [setupInstr, if_neg (Config.setup_codes_ne hc), if_pos rfl]

theorem setupInstr_other {c : Config} {b1 : Byte} (h0 : b1 ≠ 0x00) (h1 : b1 ≠ c.subSetupPrice) (b2 b3 b4 b5 b6 : Byte) :
    setupInstr c b1 b2 b3 b4 b5 b6 = .setupOther b1 b2 b3 b4 b5 b6 :=
  (if_neg h0).trans (if_neg h1)

/-- The checksum of a SETUP frame is tested in the same way whatever the subcommand; the price limits are split into their bytes
again. -/
theorem checksumGood_setupInstr (c : Config) (b1 b2 b3 b4 b5 b6 : Byte) :
    (setupInstr c b1 b2 b3 b4 b5 b6).checksumGood c = (checksum [c.cmdSetup, b1, b2, b3, b4, b5] == b6) := by
  unfold setupInstr
  split
  next h => subst h; rfl
  next =>
    split
    next h => simp [Instr.checksumGood, Instr.receivedChecksum, Instr.body, h]
    next => rfl

theorem instrLabel_setupInstr (c : Config) (b1 b2 b3 b4 b5 b6 : Byte) :
    instrLabel c (setupInstr c b1 b2 b3 b4 b5 b6) =
      if checksum [c.cmdSetup, b1, b2, b3, b4, b5] = b6 then .done else .discard := by
  rw [instrLabel_of_consumed (by simp [consumed_setupInstr]), checksumGood_setupInstr]
  simp

/-- Seven pending words whose data bytes are known, the first of them SETUP's code. -/
theorem decode_of_setup_bytes {c : Config} {ws : List Word} {b1 b2 b3 b4 b5 b6 : Byte} (hc : c.wf = true)
    (h : (ws.take 7).map strip = [c.cmdSetup, b1, b2, b3, b4, b5, b6]) :
    decode c ws = .frame (setupInstr c b1 b2 b3 b4 b5 b6) := by
  simp only [List.map_eq_cons_iff, List.map_eq_nil_iff] at h
  obtain ⟨w0, _, htake, h0, w1, _, rfl, rfl, w2, _, rfl, rfl, w3, _, rfl, rfl, w4, _, rfl, rfl, w5, _, rfl, rfl, w6, _,
    rfl, rfl, rfl⟩ := h
  rw [← List.take_append_drop 7 ws, htake]
  exact (decode_setup _ hc h0).trans (decodeSetup_cons ..)

/-- R83's reply, by R60: the data bytes plain, then their checksum as terminator. -/
theorem responseWords_with_checksum (bs : List Byte) :
    responseWords bs true = bs.map plainWord ++ [terminate (checksum bs)] :=
  terminatedWords_concat bs (checksum bs)

theorem effectSetupConfig_ok {fl cols rows info : Byte} {s : State} (hroom : txRoom 9 s = true) :
    effectSetupConfig fl cols rows info s = .ok { s with
      dc := ⟨fl, cols, rows, info⟩,
      txq := s.txq ++ (s.cfg.identity.bytes.map plainWord ++ [terminate (checksum s.cfg.identity.bytes)]) } := by
  rw [← responseWords_with_checksum]
  apply emit_ok
  rw [length_responseWords]
  exact hroom

theorem rxq_of_emit {bytes : List Byte} {chk : Bool} {s t : State} (h : emit bytes chk s = .ok t) (hne : bytes ≠ []) :
    t.rxq = s.rxq := by
  obtain ⟨-, rfl⟩ := (emit_eq_ok hne).1 h
  rfl

theorem rxq_of_effectSetupConfig {fl cols rows info : Byte} (s t : State)
    (h : effectSetupConfig fl cols rows info s = .ok t) : t.rxq = s.rxq := by
  have hne : s.cfg.identity.bytes ≠ [] := List.cons_ne_nil _ _
  have ht : t.rxq = (s.withDc ⟨fl, cols, rows, info⟩).rxq := rxq_of_emit h hne
  exact ht

theorem rxq_of_effectSetupPrice {max min : Half} (s t : State) (h : effectSetupPrice max min s = .ok t) :
    t.rxq = s.rxq := by
  unfold effectSetupPrice at h
  split at h
  next u hack =>
    cases h
    have hu : u.rxq = (s.withPl ⟨max, min⟩).rxq := rxq_of_emit hack (List.cons_ne_nil _ _)
    exact hu
  next => cases h

/-- Whatever the subcommand, a SETUP frame that ends in a next state has removed its seven words (R82). -/
theorem rxq_of_exec_setupInstr {c : Config} {b1 b2 b3 b4 b5 b6 : Byte} {s t : State}
    (h : exec (setupInstr c b1 b2 b3 b4 b5 b6) s = .next t) : t.rxq = s.rxq.drop 7 := by
  unfold setupInstr at h
  split at h
  next => exact rxq_of_afterConsuming rxq_of_effectSetupConfig h
  next =>
    split at h
    next => exact rxq_of_afterConsuming rxq_of_effectSetupPrice h
    next => exact rxq_of_afterConsuming (fun u v huv => by cases huv; rfl) h

theorem exec_setupOther {s : State} (hq : 7 ≤ s.rxq.length) (sub p0 p1 p2 p3 chk : Byte) :
    exec (.setupOther sub p0 p1 p2 p3 chk) s = .next { s with rxq := s.rxq.drop 7 } := by
  have hok (good : Bool) (u : State) : ifChecksum good (fun s1 => .ok s1) u = .ok u := by cases good <;> rfl
  calc exec (.setupOther sub p0 p1 p2 p3 chk) s
    _ = execSetupOther sub p0 p1 p2 p3 chk s := rfl
    _ = .next (s.withRxq (s.rxq.drop 7)) := by rw [execSetupOther, afterConsuming_ok _ hq, hok, settle_ok]

/-- Settles O35: the decoder's answer for a short queue and for seven words; a wrong checksum then is discarded whatever the
instruction, and a right one leaves the instruction that the subcommand names. -/
theorem setupHandlerSteps : Obligations.SetupHandlerSteps := by
  intro s w0 tail hc hq h0
  refine ⟨fun hshort => ?_, fun w1 w2 w3 w4 w5 w6 rest htail => ?_⟩
  · have hd : decode s.cfg s.rxq = .wait (7 - s.rxq.length) := by
      rw [hq, decode_setup _ hc h0, ← hq, decodeSetup_short _ hshort]
    exact ⟨step_of_decode_wait hc hd, activationLabel_of_decode hd⟩
  subst htail
  have hd := (decode_setup _ hc h0).trans (decodeSetup_cons s.cfg w0 w1 w2 w3 w4 w5 w6 rest)
  rw [← hq] at hd
  have hstep := step_of_decode_frame hc hd
  have hlabel := (activationLabel_of_decode hd).trans (instrLabel_setupInstr ..)
  have hlen : 7 ≤ s.rxq.length := by simp [hq]
  have hdrop : s.rxq.drop 7 = rest := by rw [hq]; rfl
  rw [h0]
  refine ⟨fun hbad => ⟨?_, hlabel.trans (if_neg hbad)⟩, fun hgood => ⟨fun h1 => ?_, fun h1 => ?_, fun h1 h2 => ⟨?_, ?_⟩,
    fun t ht => ?_⟩⟩
  · have hexec := exec_of_checksum_bad (by rwa [consumed_setupInstr])
      ((checksumGood_setupInstr ..).trans (beq_eq_false_iff_ne.2 hbad))
    rw [hstep, hexec, consumed_setupInstr, hdrop]
    rfl
  · rw [hstep, h1, setupInstr_config]
  · rw [hstep, h1, setupInstr_price hc]
  · rw [hstep, setupInstr_other h1 h2, exec_setupOther hlen, hdrop]
  · exact hlabel.trans (if_pos hgood)
  · rw [hstep] at ht
    rw [rxq_of_exec_setupInstr ht, hdrop]

/-- Settles O8: a right checksum lets the effect of R83 take place, whose reply fits into the room for nine words. -/
theorem setupConfigLoadsDisplay : Obligations.SetupConfigLoadsDisplay := by
  intro s fl cols rows info chk hq hroom hchk
  have hgood : Instr.checksumGood s.cfg (.setupConfig fl cols rows info chk) = true := by
    rw [← setupInstr_config s.cfg, checksumGood_setupInstr, hchk, beq_self_eq_true]
  have hroom' : txRoom 9 (s.withRxq (s.rxq.drop 7)) = true := hroom
  refine ⟨?_, ?_, fun hc hbytes => ?_⟩
  · calc exec (.setupConfig fl cols rows info chk) s
      _ = execSetupConfig fl cols rows info chk s := rfl
      _ = settle (effectSetupConfig fl cols rows info (s.withRxq (s.rxq.drop 7))) := by
        rw [execSetupConfig, afterConsuming_ok _ hq, hgood, ifChecksum_true]
      _ = _ := by rw [effectSetupConfig_ok hroom', settle_ok]; rfl
  · rw [← setupInstr_config s.cfg, instrLabel_setupInstr, if_pos hchk.symm]
  · exact step_of_decode_frame hc (decode_of_setup_bytes hc hbytes)

/-- Settles O10: the effect of R85 is none, so both checksum outcomes leave the same state and differ in the label only. -/
theorem setupOtherIsSilent : Obligations.SetupOtherIsSilent := by
  intro s sub p0 p1 p2 p3 chk hq
  refine ⟨exec_setupOther hq .., ?_, fun hc h0 h1 hbytes => ?_⟩
  · rw [instrLabel_of_consumed (by simp [Instr.consumed])]
    simp [Instr.checksumGood, Instr.receivedChecksum, Instr.body]
  · rw [step_of_decode_frame hc (decode_of_setup_bytes hc hbytes), setupInstr_other h0 h1]

end Sys2Proof.Machine
end

-- The normal form of an executed frame (41_dispatcher.md R74, R75): its words leave RXQ, its registers are written, its response
-- is sent. Each effect is the same `txWriteAll` after its register updates; every statement about `exec` rests on this form.
section
namespace Sys2Proof.Machine

/-- What a frame writes to the registers once its checksum, where it carries one, is found right: the writers of R23 to R27. -/
def registersWritten (i : Instr) (s : State) : State :=
  match i with
  | .reset => { s with dc := ⟨0, 0, 0, 0⟩, pl := ⟨0, 0⟩, rs := .inactive, pe := .justReset }
  | .setupConfig fl cols rows info _ => { s with dc := ⟨fl, cols, rows, info⟩ }
  | .setupPrice max min _ => { s with pl := ⟨max, min⟩, rs := .disabled }
  | .poll => { s with pe := .none, drawCount := s.drawCount + pollDraws s.pe }
  | .vendRequest price item _ =>
    { s with pe := answerEvent (Config.freeAuthorize s.drawCount price item), drawCount := s.drawCount + 1 }
  | .vendCancel => { s with rs := .sessionIdle }
  | .vendSessionComplete => { s with rs := .enabled }
  | .readerDisable => { s with rs := .disabled }
  | .readerEnable => { s with rs := .enabled }
  | _ => s

/-- The registers after a consumed frame; a wrong checksum writes none (R57). The queues are left as they are. -/
def registersAfter (i : Instr) (s : State) : State :=
  if i.checksumGood s.cfg then registersWritten i s else s

/-- The state after a completed frame. `exec_eq_next` ties it to `exec`. -/
def frameResult (i : Instr) (s : State) : State :=
  { registersAfter i s with rxq := s.rxq.drop i.consumed, txq := s.txq ++ replyWords s i }

theorem registersAfter_of_good {i : Instr} {s : State} (h : i.checksumGood s.cfg = true) :
    registersAfter i s = registersWritten i s :=
  if_pos h

theorem registersAfter_of_bad {i : Instr} {s : State} (h : i.checksumGood s.cfg = false) : registersAfter i s = s :=
  if_neg (by simp [h])

theorem replyWords_of_bad {i : Instr} {s : State} (h : i.checksumGood s.cfg = false) : replyWords s i = [] :=
  if_neg (by simp [h])

/-- What `registersWritten` keeps is kept whatever the checksum. -/
theorem registersAfter_field {α : Type} (field : State → α) {i : Instr} {s : State}
    (h : field (registersWritten i s) = field s) : field (registersAfter i s) = field s := by
  rw [registersAfter]
  split
  · exact h
  · rfl

@[simp] theorem registersAfter_cfg (i : Instr) (s : State) : (registersAfter i s).cfg = s.cfg :=
  registersAfter_field State.cfg (by cases i <;> rfl)

@[simp] theorem registersAfter_txq (i : Instr) (s : State) : (registersAfter i s).txq = s.txq :=
  registersAfter_field State.txq (by cases i <;> rfl)

/-- Everything `txWriteAll` answers with a state: room for all the words, which are appended. -/
theorem txWriteAll_eq_ok {ws : List Word} {s t : State} :
    txWriteAll ws s = .ok t ↔ (ws = [] ∨ txRoom ws.length s = true) ∧ t = s.withTxq (s.txq ++ ws) := by
  by_cases hws : ws = []
  · subst hws
    have hnil : s.withTxq (s.txq ++ []) = s := by rw [List.append_nil]; rfl
    rw [hnil]
    exact ⟨fun h => ⟨.inl rfl, (Except.ok.inj h).symm⟩, fun ⟨_, ht⟩ => congrArg Except.ok ht.symm⟩
  · cases hr : txRoom ws.length s with
    | true => simp [txWriteAll_ok ws s hr, eq_comm]
    | false => simp [txWriteAll_full ws s hws hr, hws]

/-- Everything `txWriteAll` answers with a fault (R36). -/
theorem txWriteAll_eq_error {ws : List Word} {s : State} {f : Fault} :
    txWriteAll ws s = .error f ↔ ws ≠ [] ∧ txRoom ws.length s = false ∧ f = .txqFull := by
  by_cases hws : ws = []
  · subst hws
    simp [txWriteAll]
  · cases hr : txRoom ws.length s with
    | true => simp [txWriteAll_ok ws s hr]
    | false => simp [txWriteAll_full ws s hws hr, hws, eq_comm]

/-- A register update may be made before the response is sent or after it. -/
theorem txWriteAll_update {f : State → State} (hcfg : ∀ u, (f u).cfg = u.cfg) (htxq : ∀ u, (f u).txq = u.txq)
    (hf : ∀ u q, f (u.withTxq q) = (f u).withTxq q) (ws : List Word) (s : State) :
    (match txWriteAll ws s with
      | .ok s1 => Except.ok (f s1)
      | .error e => .error e) = txWriteAll ws (f s) := by
  have hroom : txRoom ws.length (f s) = txRoom ws.length s := txRoom_congr (hcfg s) (htxq s)
  cases h : txWriteAll ws s with
  | ok s1 =>
    obtain ⟨hr, rfl⟩ := txWriteAll_eq_ok.1 h
    exact (txWriteAll_eq_ok.2 ⟨by rwa [hroom], by rw [hf, htxq]⟩).symm
  | error e =>
    obtain ⟨hne, hr, rfl⟩ := txWriteAll_eq_error.1 h
    exact (txWriteAll_eq_error.2 ⟨hne, by rwa [hroom], rfl⟩).symm

theorem effectReset_eq (s : State) : effectReset s = txWriteAll [terminate s.cfg.rspAck]
    { s with dc := ⟨0, 0, 0, 0⟩, pl := ⟨0, 0⟩, rs := .inactive, pe := .justReset } :=
  txWriteAll_update (f := fun u => (u.withRs .inactive).withPe .justReset) (fun _ => rfl) (fun _ => rfl)
    (fun _ _ => rfl) [terminate s.cfg.rspAck] ((s.withDc ⟨0, 0, 0, 0⟩).withPl ⟨0, 0⟩)

theorem effectSetupPrice_eq (max min : Half) (s : State) : effectSetupPrice max min s =
    txWriteAll [terminate s.cfg.rspAck] { s with pl := ⟨max, min⟩, rs := .disabled } :=
  txWriteAll_update (f := fun u => u.withRs .disabled) (fun _ => rfl) (fun _ => rfl) (fun _ _ => rfl)
    [terminate s.cfg.rspAck] (s.withPl ⟨max, min⟩)

theorem effectVendCancel_eq (s : State) :
    effectVendCancel s = txWriteAll [terminate s.cfg.evVendDenied] { s with rs := .sessionIdle } :=
  txWriteAll_update (f := fun u => u.withRs .sessionIdle) (fun _ => rfl) (fun _ => rfl) (fun _ _ => rfl)
    [terminate s.cfg.evVendDenied] s

theorem effectVendSessionComplete_eq (s : State) :
    effectVendSessionComplete s = txWriteAll [terminate s.cfg.evEndSession] { s with rs := .enabled } :=
  txWriteAll_update (f := fun u => u.withRs .enabled) (fun _ => rfl) (fun _ => rfl) (fun _ _ => rfl)
    [terminate s.cfg.evEndSession] s

/-- A meaning is in normal form when its effect is. -/
theorem exec_eq_of_effect {i : Instr} {s regs : State} {k : State → Except Fault State} {reply : List Word}
    (hexec : exec i s = afterConsuming i.consumed (ifChecksum (i.checksumGood s.cfg) k) s)
    (hreply : replyWords s i = if i.checksumGood s.cfg then reply else [])
    (hregs : registersAfter i s = if i.checksumGood s.cfg then regs else s)
    (hk : ∀ q, k (s.withRxq q) = txWriteAll reply (regs.withRxq q)) :
    exec i s = afterConsuming i.consumed
      (fun u => txWriteAll (replyWords s i) ((registersAfter i s).withRxq u.rxq)) s := by
  rw [hexec, hreply, hregs]
  by_cases hq : i.consumed ≤ s.rxq.length
  · rw [afterConsuming_ok _ hq, afterConsuming_ok _ hq]
    cases i.checksumGood s.cfg with
    | true => rw [ifChecksum_true, hk]; rfl
    | false => rfl
  · rw [afterConsuming_short _ (by omega), afterConsuming_short _ (by omega)]

/-- The normal form of every meaning: consume, write the registers, send the response of R49. -/
theorem exec_eq_txWriteAll (i : Instr) (s : State) : exec i s = afterConsuming i.consumed
    (fun u => txWriteAll (replyWords s i) ((registersAfter i s).withRxq u.rxq)) s := by
  cases i with
  | reset => exact exec_eq_of_effect rfl rfl rfl fun _ => effectReset_eq _
  | setupPrice max min chk => exact exec_eq_of_effect rfl rfl rfl fun _ => effectSetupPrice_eq ..
  | vendCancel => exact exec_eq_of_effect rfl rfl rfl fun _ => effectVendCancel_eq _
  | vendSessionComplete => exact exec_eq_of_effect rfl rfl rfl fun _ => effectVendSessionComplete_eq _
  | expansion => rfl
  | unknown b => rfl
  | _ => exact exec_eq_of_effect rfl rfl rfl fun _ => rfl

/-- All that a next state of a meaning can be: its words pending, room for its response, and then `frameResult`. -/
theorem exec_eq_next {i : Instr} {s t : State} : exec i s = .next t ↔
    i.consumed ≤ s.rxq.length ∧ (replyWords s i = [] ∨ txRoom (replyWords s i).length s = true) ∧
      t = frameResult i s := by
  have hroom (n : Nat) : txRoom n ((registersAfter i s).withRxq (s.rxq.drop i.consumed)) = txRoom n s :=
    txRoom_congr (registersAfter_cfg i s) (registersAfter_txq i s)
  rw [exec_eq_txWriteAll, afterConsuming_eq_next, txWriteAll_eq_ok]
  simp only [State.withRxq_rxq, State.withRxq_txq, hroom, registersAfter_txq]
  rfl

/-- All that a fault of a meaning can be. -/
theorem exec_eq_fault {i : Instr} {s : State} {f : Fault} : exec i s = .fault f ↔
    (s.rxq.length < i.consumed ∧ f = .rxReadEmpty) ∨
      (i.consumed ≤ s.rxq.length ∧ replyWords s i ≠ [] ∧ txRoom (replyWords s i).length s = false ∧ f = .txqFull) := by
  have hroom (n : Nat) : txRoom n ((registersAfter i s).withRxq (s.rxq.drop i.consumed)) = txRoom n s :=
    txRoom_congr (registersAfter_cfg i s) (registersAfter_txq i s)
  rw [exec_eq_txWriteAll, afterConsuming_eq_fault, txWriteAll_eq_error]
  simp only [State.withRxq_rxq, hroom]

theorem exec_ne_refused (i : Instr) (s : State) (r : Refusal) : exec i s ≠ .refused r := by
  rw [exec_eq_txWriteAll]
  exact afterConsuming_ne_refused _ _ _ _

theorem exec_next {i : Instr} {s : State} (hq : i.consumed ≤ s.rxq.length)
    (hroom : replyWords s i = [] ∨ txRoom (replyWords s i).length s = true) : exec i s = .next (frameResult i s) :=
  exec_eq_next.2 ⟨hq, hroom, rfl⟩

@[simp] theorem frameResult_cfg (i : Instr) (s : State) : (frameResult i s).cfg = s.cfg := registersAfter_cfg i s

@[simp] theorem frameResult_rxq (i : Instr) (s : State) : (frameResult i s).rxq = s.rxq.drop i.consumed := rfl

@[simp] theorem frameResult_txq (i : Instr) (s : State) : (frameResult i s).txq = s.txq ++ replyWords s i := rfl

/-- Settles O40: the fields of `frameResult`. -/
theorem executedFrameQueues : Obligations.ExecutedFrameQueues := by
  intro i s t h
  obtain ⟨-, -, rfl⟩ := exec_eq_next.1 h
  exact ⟨frameResult_cfg i s, rfl, rfl⟩

/-- Settles O42: the three cases of `exec_eq_next` and `exec_eq_fault`. -/
theorem execOutcomeByQueues : Obligations.ExecOutcomeByQueues := fun _ _ =>
  ⟨fun hq hroom => ⟨_, exec_next hq hroom⟩, fun hq hne hfull => exec_eq_fault.2 (.inr ⟨hq, hne, hfull, rfl⟩),
    fun hshort => exec_eq_fault.2 (.inl ⟨hshort, rfl⟩)⟩

end Sys2Proof.Machine
end

-- Decoding and encoding as inverses over the data bytes of the pending words (30_encoding.md R41 to R46): what is decoded has the
-- first bytes pending, and the bytes of a well-formed instruction decode to it.
section
namespace Sys2Proof.Machine

theorem bytes_setupInstr (c : Config) (b1 b2 b3 b4 b5 b6 : Byte) :
    (setupInstr c b1 b2 b3 b4 b5 b6).bytes c = [c.cmdSetup, b1, b2, b3, b4, b5, b6] := by
  unfold setupInstr
  split
  next h => subst h; rfl
  next =>
    split
    next h => simp [Instr.bytes, Instr.receivedChecksum, Instr.body, h]
    next => rfl

theorem wf_setupOther {c : Config} {sub p0 p1 p2 p3 chk : Byte} : (Instr.setupOther sub p0 p1 p2 p3 chk).wf c = true ↔
    sub ≠ subSetupConfig ∧ sub ≠ c.subSetupPrice := by
  simp [Instr.wf, Config.setupCodes]

theorem wf_vendOther {c : Config} {sub : Byte} : (Instr.vendOther sub).wf c = true ↔
    sub ≠ c.subVendRequest ∧ sub ≠ c.subVendCancel ∧ sub ≠ c.subVendSuccess ∧ sub ≠ c.subVendFailure ∧
      sub ≠ c.subVendSessionComplete ∧ sub ≠ c.subVendCashSale := by
  simp [Instr.wf, Config.vendCodes]

theorem wf_readerOther {c : Config} {sub : Byte} : (Instr.readerOther sub).wf c = true ↔
    sub ≠ c.subReaderDisable ∧ sub ≠ c.subReaderEnable ∧ sub ≠ c.subReaderCancel := by
  simp [Instr.wf, Config.readerCodes]

theorem wf_unknown {c : Config} {b : Byte} : (Instr.unknown b).wf c = true ↔
    b ≠ c.cmdReset ∧ b ≠ c.cmdSetup ∧ b ≠ c.cmdPoll ∧ b ≠ c.cmdVend ∧ b ≠ c.cmdReader ∧ b ≠ c.cmdExpansion := by
  simp [Instr.wf, Config.commandCodes]

theorem wf_setupInstr (c : Config) (b1 b2 b3 b4 b5 b6 : Byte) : (setupInstr c b1 b2 b3 b4 b5 b6).wf c = true := by
  unfold setupInstr
  split
  next => rfl
  next h0 =>
    split
    next => rfl
    next h1 => exact wf_setupOther.2 ⟨h0, h1⟩

theorem bytes_readerInstr (c : Config) (b1 : Byte) : (readerInstr c b1).bytes c = [c.cmdReader, b1] := by
  unfold readerInstr
  split_ifs with h0 h1 h2
  all_goals simp [Instr.bytes, Instr.receivedChecksum, Instr.body, *]

theorem wf_readerInstr (c : Config) (b1 : Byte) : (readerInstr c b1).wf c = true := by
  unfold readerInstr
  split_ifs with h0 h1 h2
  · rfl
  · rfl
  · rfl
  · exact wf_readerOther.2 ⟨h0, h1, h2⟩

/-- Seven pending words after SETUP's head: the instruction of their data bytes. -/
theorem decodeSetup_eq_frame {c : Config} {w : Word} {ws : List Word} {i : Instr} (h : decodeSetup c (w :: ws) = .frame i) :
    ∃ b1 b2 b3 b4 b5 b6 : Byte, i = setupInstr c b1 b2 b3 b4 b5 b6 ∧ [b1, b2, b3, b4, b5, b6] <+: ws.map strip := by
  unfold decodeSetup at h
  split at h
  next heq =>
    cases heq
    cases h
    exact ⟨_, _, _, _, _, _, rfl, by simp⟩
  next => cases h

theorem decodeReader_eq_frame {c : Config} {w : Word} {ws : List Word} {i : Instr} (h : decodeReader c (w :: ws) = .frame i) :
    ∃ b1 : Byte, i = readerInstr c b1 ∧ [b1] <+: ws.map strip := by
  cases ws with
  | nil => cases h
  | cons w1 ws => cases h; exact ⟨_, rfl, by simp⟩

/-- What VEND decodes to holds the subcommand and operands that were pending. -/
theorem decodeVendSub_eq_frame {c : Config} {sub : Byte} {ws : List Word} {i : Instr}
    (h : decodeVendSub c sub ws = .frame i) :
    i.wf c = true ∧ ∃ operands : List Byte, i.bytes c = c.cmdVend :: sub :: operands ∧ operands <+: ws.map strip := by
  have twoWords {j : Instr} (hwf : j.wf c = true) (hbytes : j.bytes c = [c.cmdVend, sub]) (hj : Decoded.frame j = .frame i) :
      i.wf c = true ∧ ∃ operands : List Byte, i.bytes c = c.cmdVend :: sub :: operands ∧ operands <+: ws.map strip := by
    cases hj
    exact ⟨hwf, [], hbytes, List.nil_prefix⟩
  unfold decodeVendSub at h
  split_ifs at h with h0 h1 h2 h3 h4 h5
  · subst h0
    split at h
    next => cases h; exact ⟨rfl, _, by simp [Instr.bytes, Instr.receivedChecksum, Instr.body]; rfl, by simp⟩
    next => cases h
  · exact twoWords rfl (by subst h1; rfl) h
  · subst h2
    split at h
    next => cases h; exact ⟨rfl, _, by simp [Instr.bytes, Instr.receivedChecksum, Instr.body]; rfl, by simp⟩
    next => cases h
  · exact twoWords rfl (by subst h3; rfl) h
  · exact twoWords rfl (by subst h4; rfl) h
  · exact twoWords rfl (by subst h5; rfl) h
  · exact twoWords (wf_vendOther.2 ⟨h0, h1, h2, h3, h4, h5⟩) rfl h

theorem decodeVend_eq_frame {c : Config} {w : Word} {ws : List Word} {i : Instr} (h : decodeVend c (w :: ws) = .frame i) :
    ∃ (w1 : Word) (rest : List Word), ws = w1 :: rest ∧ decodeVendSub c (strip w1) rest = .frame i := by
  cases ws with
  | nil => cases h
  | cons w1 rest => exact ⟨w1, rest, rfl, h⟩

/-- Whatever the decoder reads is well-formed, and its data bytes are the first ones pending. -/
theorem wf_and_bytes_prefix_of_decode {c : Config} {ws : List Word} {i : Instr} (h : decode c ws = .frame i) :
    i.wf c = true ∧ i.bytes c <+: ws.map strip := by
  cases ws with
  | nil => cases h
  | cons w ws =>
    rw [List.map_cons]
    simp only [decode] at h
    split_ifs at h with h0 h1 h2 h3 h4 h5
    · cases h
      exact ⟨rfl, by simp [Instr.bytes, Instr.receivedChecksum, Instr.body, h0]⟩
    · obtain ⟨b1, b2, b3, b4, b5, b6, rfl, hpre⟩ := decodeSetup_eq_frame h
      rw [bytes_setupInstr, List.cons_prefix_cons]
      exact ⟨wf_setupInstr .., h1.symm, hpre⟩
    · cases h
      exact ⟨rfl, by simp [Instr.bytes, Instr.receivedChecksum, Instr.body, h2]⟩
    · obtain ⟨w1, rest, rfl, hsub⟩ := decodeVend_eq_frame h
      obtain ⟨hwf, operands, hbytes, hpre⟩ := decodeVendSub_eq_frame hsub
      rw [hbytes, List.map_cons, List.cons_prefix_cons, List.cons_prefix_cons]
      exact ⟨hwf, h3.symm, rfl, hpre⟩
    · obtain ⟨b1, rfl, hpre⟩ := decodeReader_eq_frame h
      rw [bytes_readerInstr, List.cons_prefix_cons]
      exact ⟨wf_readerInstr .., h4.symm, hpre⟩
    · cases h
      exact ⟨rfl, by simp [Instr.bytes, Instr.receivedChecksum, Instr.body, h5]⟩
    · cases h
      exact ⟨wf_unknown.2 ⟨h0, h1, h2, h3, h4, h5⟩, by simp [Instr.bytes, Instr.receivedChecksum, Instr.body]⟩

section
variable {f : Word → Word} (hf : ∀ w, strip (f w) = strip w)
include hf

theorem decodeSetup_map (c : Config) : ∀ ws : List Word, decodeSetup c (ws.map f) = decodeSetup c ws
  | [] | [_] | [_, _] | [_, _, _] | [_, _, _, _] | [_, _, _, _, _] | [_, _, _, _, _, _] => rfl
  | _ :: _ :: _ :: _ :: _ :: _ :: _ :: _ => by simp [decodeSetup, hf]

theorem decodeReader_map (c : Config) : ∀ ws : List Word, decodeReader c (ws.map f) = decodeReader c ws
  | [] | [_] => rfl
  | _ :: _ :: _ => by simp [decodeReader, hf]

theorem decodeVendSub_map (c : Config) (sub : Byte) (ws : List Word) :
    decodeVendSub c sub (ws.map f) = decodeVendSub c sub ws := by
  unfold decodeVendSub
  split_ifs
  · match ws with
    | [] | [_] | [_, _] | [_, _, _] | [_, _, _, _] => rfl
    | _ :: _ :: _ :: _ :: _ :: _ => simp [hf]
  · rfl
  · match ws with
    | [] | [_] | [_, _] => rfl
    | _ :: _ :: _ :: _ => simp [hf]
  all_goals rfl

theorem decodeVend_map (c : Config) : ∀ ws : List Word, decodeVend c (ws.map f) = decodeVend c ws
  | [] | [_] => rfl
  | _ :: w1 :: ws => by
    rw [List.map_cons, List.map_cons, decodeVend_cons, decodeVend_cons, hf, decodeVendSub_map hf]

/-- The decoder sees the data bytes of the pending words only (R41). -/
theorem decode_map (c : Config) (ws : List Word) : decode c (ws.map f) = decode c ws := by
  cases ws with
  | nil => rfl
  | cons w ws =>
    have hsetup := decodeSetup_map hf c (w :: ws)
    have hvend := decodeVend_map hf c (w :: ws)
    have hreader := decodeReader_map hf c (w :: ws)
    rw [List.map_cons] at hsetup hvend hreader ⊢
    simp only [decode, hf, hsetup, hvend, hreader]

end

theorem decode_congr (c : Config) {ws vs : List Word} (h : ws.map strip = vs.map strip) : decode c ws = decode c vs := by
  have hf (w : Word) : strip (plainWord (strip w)) = strip w := strip_plainWord _
  calc decode c ws
    _ = decode c ((ws.map strip).map plainWord) := by rw [List.map_map]; exact (decode_map hf c ws).symm
    _ = decode c ((vs.map strip).map plainWord) := by rw [h]
    _ = decode c vs := by rw [List.map_map]; exact decode_map hf c vs

theorem decode_expansion {c : Config} {w : Word} (ws : List Word) (hc : c.wf = true) (h : strip w = c.cmdExpansion) :
    decode c (w :: ws) = .frame .expansion := by
  simp [decode, h, Config.command_codes_ne hc]

theorem decode_unknown {c : Config} {w : Word} (ws : List Word) (h : (Instr.unknown (strip w)).wf c = true) :
    decode c (w :: ws) = .frame (.unknown (strip w)) := by
  simp [decode, wf_unknown.1 h]

theorem decode_of_vend {c : Config} (hc : c.wf = true) (sub : Byte) (bs : List Byte) :
    decode c ((c.cmdVend :: sub :: bs).map plainWord) = decodeVendSub c sub (bs.map plainWord) := by
  rw [List.map_cons, decode_vend _ hc (strip_plainWord _), List.map_cons, decodeVend_cons, strip_plainWord]

theorem decode_of_reader {c : Config} (hc : c.wf = true) (sub : Byte) (bs : List Byte) :
    decode c ((c.cmdReader :: sub :: bs).map plainWord) = .frame (readerInstr c sub) := by
  rw [List.map_cons, decode_reader _ hc (strip_plainWord _), List.map_cons, decodeReader_cons, strip_plainWord]

theorem decode_of_setup {c : Config} (hc : c.wf = true) (b1 b2 b3 b4 b5 b6 : Byte) (bs : List Byte) :
    decode c ((c.cmdSetup :: b1 :: b2 :: b3 :: b4 :: b5 :: b6 :: bs).map plainWord) =
      .frame (setupInstr c b1 b2 b3 b4 b5 b6) :=
  decode_of_setup_bytes hc (by simp)

/-- The data bytes of a well-formed instruction, with any bytes behind them, decode to it: each command by the decoder's answer
for it, each subcommand by being no code that is compared before. -/
theorem decode_bytes {c : Config} (hc : c.wf = true) {i : Instr} (hi : i.wf c = true) (tail : List Byte) :
    decode c ((i.bytes c ++ tail).map plainWord) = .frame i := by
  have hvend := Config.vend_codes_ne hc
  have hreader := Config.reader_codes_ne hc
  cases i with
  | reset => exact decode_reset _ (strip_plainWord _)
  | poll => exact decode_poll _ hc (strip_plainWord _)
  | expansion => exact decode_expansion _ hc (strip_plainWord _)
  | unknown b =>
    rw [← strip_plainWord b] at hi
    refine (decode_unknown _ hi).trans ?_
    rw [strip_plainWord]
  | setupConfig => exact decode_of_setup hc ..
  | setupPrice =>
    refine (decode_of_setup hc ..).trans ?_
    rw [setupInstr_price hc, be16_high_low, be16_high_low]
  | setupOther sub =>
    obtain ⟨h0, h1⟩ := wf_setupOther.1 hi
    refine (decode_of_setup hc ..).trans ?_
    rw [setupInstr_other h0 h1]
  | vendRequest =>
    refine (decode_of_vend hc ..).trans ?_
    simp [decodeVendSub, Instr.receivedChecksum]
  | vendSuccess =>
    refine (decode_of_vend hc ..).trans ?_
    simp [decodeVendSub, Instr.receivedChecksum, hvend]
  | vendOther sub =>
    refine (decode_of_vend hc ..).trans ?_
    simp [decodeVendSub, wf_vendOther.1 hi]
  | vendCancel | vendFailure | vendSessionComplete | vendCashSale =>
    refine (decode_of_vend hc ..).trans ?_
    simp [decodeVendSub, hvend]
  | readerOther sub =>
    refine (decode_of_reader hc ..).trans ?_
    simp [readerInstr, wf_readerOther.1 hi]
  | readerDisable | readerEnable | readerCancel =>
    refine (decode_of_reader hc ..).trans ?_
    simp [readerInstr, hreader]

/-- The decoder reads `i` from every queue whose first data bytes are those of `i`. -/
theorem decode_of_prefix {c : Config} {i : Instr} {ws : List Word} (hc : c.wf = true) (hi : i.wf c = true)
    (h : i.bytes c <+: ws.map strip) : decode c ws = .frame i := by
  obtain ⟨tail, htail⟩ := h
  rw [← decode_bytes hc hi tail]
  apply decode_congr
  rw [htail, List.map_map]
  simp [Function.comp_def]

/-- The frame length of R42, for every instruction. -/
theorem encodedLength : ∀ i : Instr, Laws.EncodedLength.Statement i
  | .reset => Laws.EncodedLength.reset
  | .setupConfig .. => Laws.EncodedLength.setupConfig _ _ _ _ _
  | .setupPrice .. => Laws.EncodedLength.setupPrice _ _ _
  | .setupOther .. => Laws.EncodedLength.setupOther _ _ _ _ _ _
  | .poll => Laws.EncodedLength.poll
  | .vendRequest .. => Laws.EncodedLength.vendRequest _ _ _
  | .vendCancel => Laws.EncodedLength.vendCancel
  | .vendSuccess .. => Laws.EncodedLength.vendSuccess _ _
  | .vendFailure => Laws.EncodedLength.vendFailure
  | .vendSessionComplete => Laws.EncodedLength.vendSessionComplete
  | .vendCashSale => Laws.EncodedLength.vendCashSale
  | .vendOther _ => Laws.EncodedLength.vendOther _
  | .readerDisable => Laws.EncodedLength.readerDisable
  | .readerEnable => Laws.EncodedLength.readerEnable
  | .readerCancel => Laws.EncodedLength.readerCancel
  | .readerOther _ => Laws.EncodedLength.readerOther _
  | .expansion => Laws.EncodedLength.expansion
  | .unknown _ => Laws.EncodedLength.unknown _

theorem length_bytes (c : Config) (i : Instr) : (i.bytes c).length = if i.consumed = 0 then 1 else i.consumed := by
  rw [← encodedLength i c, encode, length_frameWords]

theorem consumed_le_of_decode {c : Config} {ws : List Word} {i : Instr} (h : decode c ws = .frame i) :
    i.consumed ≤ ws.length := by
  have hlen := (wf_and_bytes_prefix_of_decode h).2.length_le
  rw [List.length_map, length_bytes] at hlen
  split at hlen <;> omega

/-- Settles O31: the words of an encoded instruction carry its bytes. -/
theorem decodeOfEncode : Obligations.DecodeOfEncode := by
  intro c i rest hc hi
  apply decode_of_prefix hc hi
  rw [List.map_append, encode, map_strip_frameWords]
  exact List.prefix_append ..

/-- Settles O32: what is decoded has the first bytes pending. -/
theorem encodeOfDecode : Obligations.EncodeOfDecode := by
  intro c ws i h
  have hpre := (wf_and_bytes_prefix_of_decode h).2
  rw [List.map_take]
  exact ⟨List.prefix_iff_eq_take.1 hpre, by simpa using hpre.length_le⟩

/-- Settles O33: an instruction consumes no more words than it has bytes. -/
theorem decodedInstructionIsWellFormed : Obligations.DecodedInstructionIsWellFormed := fun _ _ _ h =>
  ⟨(wf_and_bytes_prefix_of_decode h).1, consumed_le_of_decode h⟩

end Sys2Proof.Machine
end

-- The waits, the head bytes that no handler takes, and what the labels say (41_dispatcher.md R71 to R74, R78).
section
namespace Sys2Proof.Machine

theorem decodeSetup_eq_wait {c : Config} {n : Nat} :
    ∀ {ws : List Word}, decodeSetup c ws = .wait n ↔ ws.length < 7 ∧ n = 7 - ws.length
  | [] | [_] | [_, _] | [_, _, _] | [_, _, _, _] | [_, _, _, _, _] | [_, _, _, _, _, _] => by simp [decodeSetup, eq_comm]
  | _ :: _ :: _ :: _ :: _ :: _ :: _ :: _ => by simp [decodeSetup]

theorem decodeReader_eq_wait {c : Config} {n : Nat} :
    ∀ {ws : List Word}, decodeReader c ws = .wait n ↔ ws.length < 2 ∧ n = 2 - ws.length
  | [] | [_] => by simp [decodeReader, eq_comm]
  | _ :: _ :: _ => by simp [decodeReader]

/-- Once VEND's subcommand is visible, its wait is for the length of R101. -/
theorem decodeVendSub_eq_wait {c : Config} {sub : Byte} {n : Nat} {rest : List Word} :
    decodeVendSub c sub rest = .wait n ↔ rest.length + 2 < vendLength c sub ∧ n = vendLength c sub - (rest.length + 2) := by
  unfold decodeVendSub vendLength
  split_ifs
  · match rest with
    | [] | [_] | [_, _] | [_, _, _] | [_, _, _, _] => simp [eq_comm]
    | _ :: _ :: _ :: _ :: _ :: _ => simp
  · simp
  · match rest with
    | [] | [_] | [_, _] => simp [eq_comm]
    | _ :: _ :: _ :: _ => simp
  all_goals simp

theorem decodeVend_one (c : Config) (w : Word) : decodeVend c [w] = .wait 1 := rfl

theorem decodeSetup_ne_empty {c : Config} {ws : List Word} : decodeSetup c ws ≠ .empty := by
  unfold decodeSetup
  split <;> simp

theorem decodeVendSub_ne_empty {c : Config} {sub : Byte} {rest : List Word} : decodeVendSub c sub rest ≠ .empty := by
  unfold decodeVendSub
  split_ifs
  · split <;> simp
  · simp
  · split <;> simp
  all_goals simp

theorem decodeVend_ne_empty {c : Config} {ws : List Word} : decodeVend c ws ≠ .empty := by
  unfold decodeVend
  split
  · exact decodeVendSub_ne_empty
  · simp

theorem decodeReader_ne_empty {c : Config} {ws : List Word} : decodeReader c ws ≠ .empty := by
  unfold decodeReader
  split <;> simp

/-- The decoder finds nothing only where nothing is pending (R71). -/
theorem decode_eq_empty {c : Config} {ws : List Word} : decode c ws = .empty ↔ ws = [] := by
  refine ⟨fun h => ?_, fun h => by rw [h, decode_nil]⟩
  cases ws with
  | nil => rfl
  | cons w ws =>
    simp only [decode] at h
    split_ifs at h
    · exact absurd h decodeSetup_ne_empty
    · exact absurd h decodeVend_ne_empty
    · exact absurd h decodeReader_ne_empty

/-- A wait is for at least one word, and lasts until that many have arrived: the length waited for is fixed by the words that are
visible. -/
theorem decode_wait_append {c : Config} {ws : List Word} {n : Nat} (h : decode c ws = .wait n) :
    0 < n ∧ ∀ more : List Word, more.length < n → decode c (ws ++ more) = .wait (n - more.length) := by
  cases ws with
  | nil => cases h
  | cons w ws =>
    simp only [List.cons_append, decode] at h ⊢
    split_ifs at h ⊢
    · rw [decodeSetup_eq_wait, List.length_cons] at h
      refine ⟨by omega, fun more hmore => ?_⟩
      rw [decodeSetup_eq_wait, List.length_cons, List.length_append]
      omega
    · cases ws with
      | nil =>
        rw [decodeVend_one] at h
        cases h
        refine ⟨Nat.one_pos, fun more hmore => ?_⟩
        obtain rfl : more = [] := List.length_eq_zero_iff.1 (by omega)
        exact decodeVend_one c w
      | cons w1 rest =>
        rw [decodeVend_cons, decodeVendSub_eq_wait] at h
        refine ⟨by omega, fun more hmore => ?_⟩
        rw [List.cons_append, decodeVend_cons, decodeVendSub_eq_wait, List.length_append]
        omega
    · rw [decodeReader_eq_wait, List.length_cons] at h
      refine ⟨by omega, fun more hmore => ?_⟩
      rw [decodeReader_eq_wait, List.length_cons, List.length_append]
      omega

/-- A head byte outside the five dispatched codes decodes to one of the two instructions that consume no word (R46, R73). -/
theorem decode_of_unhandled {c : Config} {w : Word} (ws : List Word) (h0 : strip w ≠ c.cmdReset) (h1 : strip w ≠ c.cmdSetup)
    (h2 : strip w ≠ c.cmdPoll) (h3 : strip w ≠ c.cmdVend) (h4 : strip w ≠ c.cmdReader) :
    ∃ i : Instr, decode c (w :: ws) = .frame i ∧ i.consumed = 0 := by
  by_cases h5 : strip w = c.cmdExpansion
  · exact ⟨.expansion, by simp [decode, ← h5, h0, h1, h2, h3, h4], rfl⟩
  · exact ⟨.unknown (strip w), decode_unknown ws (wf_unknown.2 ⟨h0, h1, h2, h3, h4, h5⟩), rfl⟩

theorem exec_of_consumed_zero {i : Instr} (h : i.consumed = 0) (s : State) : exec i s = .next s := by
  cases i with
  | expansion | unknown => rfl
  | _ => cases h

theorem instrLabel_of_consumed_zero {i : Instr} (h : i.consumed = 0) (c : Config) : instrLabel c i = .idle :=
  if_pos h

/-- A frame without checksum passes the test. -/
theorem checksumGood_of_none {i : Instr} (h : i.receivedChecksum = none) (c : Config) : i.checksumGood c = true := by
  simp [Instr.checksumGood, h]

theorem receivedChecksum_ne_none_of_bad {i : Instr} {c : Config} (h : i.checksumGood c = false) : i.receivedChecksum ≠ none := by
  intro hnone
  rw [checksumGood_of_none hnone] at h
  cases h

/-- The frames that carry a checksum are F5 and F7 (R42). -/
theorem consumed_of_receivedChecksum {i : Instr} (h : i.receivedChecksum ≠ none) : i.consumed = 5 ∨ i.consumed = 7 := by
  cases i with
  | vendSuccess => exact .inl rfl
  | setupConfig | setupPrice | setupOther | vendRequest => exact .inr rfl
  | _ => exact absurd rfl h

theorem instrLabel_of_bad {i : Instr} {c : Config} (h : i.checksumGood c = false) : instrLabel c i = .discard := by
  have hlen := consumed_of_receivedChecksum (receivedChecksum_ne_none_of_bad h)
  rw [instrLabel_of_consumed (by omega), h]
  rfl

theorem consumed_eq_zero_of_idle {c : Config} {i : Instr} (h : instrLabel c i = .idle) : i.consumed = 0 := by
  unfold instrLabel at h
  split_ifs at h with h0
  exact h0

theorem checksum_bad_of_discard {c : Config} {i : Instr} (h : instrLabel c i = .discard) : i.checksumGood c = false := by
  unfold instrLabel at h
  split_ifs at h with h0 hgood
  simpa using hgood

/-- The label WAIT is the decoder's. -/
theorem decode_of_activationLabel_wait {s : State} {n : Nat} (h : activationLabel s = .wait n) :
    decode s.cfg s.rxq = .wait n := by
  cases hd : decode s.cfg s.rxq with
  | empty => rw [activationLabel_of_decode hd] at h; cases h
  | wait m => rw [activationLabel_of_decode hd] at h; cases h; rfl
  | frame i =>
    have hi : instrLabel s.cfg i = .wait n := (activationLabel_of_decode hd).symm.trans h
    unfold instrLabel at hi
    split_ifs at hi

theorem step_of_decode_empty {s : State} (hc : s.cfg.wf = true) (hd : decode s.cfg s.rxq = .empty) : step s = .next s := by
  simp [step, hc, hd]

theorem step_of_idle {s : State} (hc : s.cfg.wf = true) (h : activationLabel s = .idle) : step s = .next s := by
  cases hd : decode s.cfg s.rxq with
  | empty => exact step_of_decode_empty hc hd
  | wait n => exact step_of_decode_wait hc hd
  | frame i =>
    have hi : instrLabel s.cfg i = .idle := (activationLabel_of_decode hd).symm.trans h
    rw [step_of_decode_frame hc hd, exec_of_consumed_zero (consumed_eq_zero_of_idle hi)]

theorem step_of_wait {s : State} {n : Nat} (hc : s.cfg.wf = true) (h : activationLabel s = .wait n) : step s = .next s :=
  step_of_decode_wait hc (decode_of_activationLabel_wait h)

theorem step_of_discard {s : State} (hc : s.cfg.wf = true) (h : activationLabel s = .discard) :
    ∃ k : Nat, (k = 5 ∨ k = 7) ∧ k ≤ s.rxq.length ∧ step s = .next { s with rxq := s.rxq.drop k } := by
  cases hd : decode s.cfg s.rxq with
  | empty => rw [activationLabel_of_decode hd] at h; cases h
  | wait n => rw [activationLabel_of_decode hd] at h; cases h
  | frame i =>
    have hbad := checksum_bad_of_discard ((activationLabel_of_decode hd).symm.trans h)
    have hq := consumed_le_of_decode hd
    refine ⟨i.consumed, consumed_of_receivedChecksum (receivedChecksum_ne_none_of_bad hbad), hq, ?_⟩
    rw [step_of_decode_frame hc hd, exec_of_checksum_bad hq hbad]
    rfl

theorem step_of_atRest {s : State} (hc : s.cfg.wf = true) (h : s.atRest = true) : step s = .next s := by
  unfold State.atRest at h
  cases hl : activationLabel s with
  | idle => exact step_of_idle hc hl
  | wait n => exact step_of_wait hc hl
  | discard => simp [hl] at h
  | done => simp [hl] at h

/-- Settles O37: `decode_wait_append`. -/
theorem waitLastsUntilWordsArrive : Obligations.WaitLastsUntilWordsArrive := fun _ _ more _ h hmore =>
  (decode_wait_append h).2 more hmore

/-- Settles O38: the decoder's answer consumes no word. -/
theorem unknownHeadIsLeftPending : Obligations.UnknownHeadIsLeftPending := by
  intro s w rest hc hq h0 h1 h2 h3 h4
  obtain ⟨i, hd, hi⟩ := decode_of_unhandled rest h0 h1 h2 h3 h4
  rw [← hq] at hd
  exact ⟨(step_of_decode_frame hc hd).trans (exec_of_consumed_zero hi s),
    (activationLabel_of_decode hd).trans (instrLabel_of_consumed_zero hi s.cfg)⟩

/-- Settles O29: `exec_of_checksum_bad` and `instrLabel_of_bad`. -/
theorem badChecksumDiscardsFrame : Obligations.BadChecksumDiscardsFrame := fun _ _ hbad hq =>
  ⟨exec_of_checksum_bad hq hbad, instrLabel_of_bad hbad⟩

/-- Settles O47: each label read off the decoder's answer. -/
theorem labelsSayWhatHappened : Obligations.LabelsSayWhatHappened := fun _ hc =>
  ⟨step_of_idle hc, fun _ h => ⟨(decode_wait_append (decode_of_activationLabel_wait h)).1, step_of_wait hc h⟩,
    step_of_discard hc, step_of_atRest hc⟩

/-- VEND with its subcommand visible and fewer words than its length (R100, R101). -/
theorem vend_waits {s : State} {w0 w1 : Word} {rest : List Word} (hc : s.cfg.wf = true) (hq : s.rxq = w0 :: w1 :: rest)
    (h0 : strip w0 = s.cfg.cmdVend) (hlen : s.rxq.length < vendLength s.cfg (strip w1)) :
    step s = .next s ∧ activationLabel s = .wait (vendLength s.cfg (strip w1) - s.rxq.length) := by
  have hcount : s.rxq.length = rest.length + 2 := by simp [hq]
  have hd : decode s.cfg s.rxq = .wait (vendLength s.cfg (strip w1) - s.rxq.length) := by
    rw [hcount] at hlen ⊢
    rw [hq, decode_vend _ hc h0, decodeVend_cons, decodeVendSub_eq_wait]
    exact ⟨hlen, rfl⟩
  exact ⟨step_of_decode_wait hc hd, activationLabel_of_decode hd⟩

@[simp] theorem vendLength_request (c : Config) : vendLength c c.subVendRequest = 7 := if_pos rfl

theorem vendLength_success {c : Config} (hc : c.wf = true) : vendLength c c.subVendSuccess = 5 := by
  simp [vendLength, Config.vend_codes_ne hc]

/-- Settles O36: the two waits by the lengths of R101; any other subcommand is a frame of two words without checksum. -/
theorem vendWaitsForItsLength : Obligations.VendWaitsForItsLength := by
  intro s w0 tail hc hq h0
  refine ⟨fun htail => ?_, fun w1 rest htail => ?_⟩
  · have hd : decode s.cfg s.rxq = .wait 1 := by rw [hq, htail, decode_vend _ hc h0, decodeVend_one]
    exact ⟨step_of_decode_wait hc hd, activationLabel_of_decode hd⟩
  rw [htail] at hq
  have hwait := vend_waits hc hq h0
  refine ⟨fun h1 hlen => ?_, fun h1 hlen => ?_, fun h1 h2 t ht => ?_⟩
  · rw [h1, vendLength_request] at hwait
    exact hwait hlen
  · rw [h1, vendLength_success hc] at hwait
    exact hwait hlen
  · obtain ⟨i, hsub, hchk, hi⟩ := decodeVendSub_short_frame rest h1 h2
    have hd : decode s.cfg s.rxq = .frame i := by rw [hq, decode_vend _ hc h0, decodeVend_cons, hsub]
    rw [step_of_decode_frame hc hd] at ht
    obtain ⟨-, -, rfl⟩ := exec_eq_next.1 ht
    refine ⟨by rw [frameResult_rxq, hi, hq]; rfl, (activationLabel_of_decode hd).trans ?_⟩
    refine (instrLabel_of_consumed (by omega)).trans ?_
    rw [checksumGood_of_none hchk]
    rfl

end Sys2Proof.Machine
end

-- The activation in the spec's order agrees with the step (41_dispatcher.md R70, 42_reset_setup.md R80, R82, 43_poll.md R88,
-- 44_vend_reader.md R100, R110): one lemma per handler.
section
namespace Sys2Proof.Machine

/-- An activation written as pseudocode ends with the result `r`, and with the label `l` where it ends in a state. -/
def EndsAs (e : Ended) (l : Label) (r : StepResult) : Prop :=
  r = endedResult e ∧ ∀ (l' : Label) (t : State), e = .ok (l', t) → l' = l

theorem endsAs_ok (l : Label) (s : State) : EndsAs (.ok (l, s)) l (.next s) :=
  ⟨rfl, fun _ _ h => by cases h; rfl⟩

theorem endsAs_returnDone (r : Except Fault State) : EndsAs (returnDone r) .done (settle r) := by
  cases r with
  | ok s => exact endsAs_ok .done s
  | error f => exact ⟨rfl, fun _ _ h => by cases h⟩

/-- The pseudocode `body`, which runs once the words of `i` are read, is the checksum test and the effect of `i`'s meaning. -/
def HandledAs (c : Config) (i : Instr) (body : State → Ended) : Prop :=
  ∃ k : State → Except Fault State,
    (∀ s : State, s.cfg = c → exec i s = afterConsuming i.consumed (ifChecksum (i.checksumGood c) k) s) ∧
      ∀ u : State, body u = if i.checksumGood c then returnDone (k u) else .ok (.discard, u)

theorem handledAs_of_no_checksum {c : Config} {i : Instr} (k : State → Except Fault State)
    (hexec : ∀ s, exec i s = afterConsuming i.consumed k s) (hgood : i.checksumGood c = true) :
    HandledAs c i (fun u => returnDone (k u)) :=
  ⟨k, fun s _ => by rw [hexec, hgood]; rfl, fun u => by rw [hgood, if_pos rfl]⟩

/-- A body that runs on the state after the reads ends as the step does. -/
theorem endsAs_of_handledAs {s : State} {i : Instr} {body : State → Ended} (hc : s.cfg.wf = true)
    (hd : decode s.cfg s.rxq = .frame i) (hi : i.consumed ≠ 0) (h : HandledAs s.cfg i body) :
    EndsAs (body (s.withRxq (s.rxq.drop i.consumed))) (activationLabel s) (step s) := by
  obtain ⟨k, hexec, hbody⟩ := h
  rw [step_of_decode_frame hc hd, activationLabel_of_decode hd, hexec s rfl, afterConsuming_ok _ (consumed_le_of_decode hd),
    hbody, decodedLabel, instrLabel_of_consumed hi]
  cases i.checksumGood s.cfg with
  | true => exact endsAs_returnDone _
  | false => exact endsAs_ok .discard _

theorem endsAs_of_wait {s : State} {n : Nat} (hc : s.cfg.wf = true) (hd : decode s.cfg s.rxq = .wait n) :
    EndsAs (.ok (.wait n, s)) (activationLabel s) (step s) := by
  rw [step_of_decode_wait hc hd, activationLabel_of_decode hd]
  exact endsAs_ok _ s

/-- The spec's read loop yields the data bytes of the frame that the decoder saw. -/
theorem readBytes_of_decode {s : State} {i : Instr} (hd : decode s.cfg s.rxq = .frame i) (hi : i.consumed ≠ 0) :
    readBytes i.consumed s = .ok (i.bytes s.cfg, s.withRxq (s.rxq.drop i.consumed)) := by
  have hbytes := List.prefix_iff_eq_take.1 (wf_and_bytes_prefix_of_decode hd).2
  rw [length_bytes, if_neg hi, ← List.map_take] at hbytes
  rw [readBytes_ok _ _ (consumed_le_of_decode hd), ← hbytes]

theorem rxRead_of_decode {s : State} {i : Instr} (hd : decode s.cfg s.rxq = .frame i) (hi : i.consumed = 1) :
    ∃ w : Word, rxRead s = .ok (w, s.withRxq (s.rxq.drop i.consumed)) := by
  have hlen := consumed_le_of_decode hd
  cases hq : s.rxq with
  | nil => rw [hq, List.length_nil] at hlen; omega
  | cons w ws => exact ⟨w, by rw [rxRead_cons hq, hi]; rfl⟩

/-- RESET (R80). -/
theorem endsAs_resetHandler {s : State} (hc : s.cfg.wf = true) (hd : decode s.cfg s.rxq = .frame .reset) :
    EndsAs (resetHandler s) (activationLabel s) (step s) := by
  obtain ⟨w, hread⟩ := rxRead_of_decode hd rfl
  rw [resetHandler, hread]
  exact endsAs_of_handledAs hc hd (by decide) (handledAs_of_no_checksum effectReset (fun _ => rfl) rfl)

/-- POLL (R88). -/
theorem endsAs_pollHandler {s : State} (hc : s.cfg.wf = true) (hd : decode s.cfg s.rxq = .frame .poll) :
    EndsAs (pollHandler s) (activationLabel s) (step s) := by
  obtain ⟨w, hread⟩ := rxRead_of_decode hd rfl
  rw [pollHandler, hread]
  exact endsAs_of_handledAs hc hd (by decide) (handledAs_of_no_checksum effectPoll (fun _ => rfl) rfl)

/-- SETUP once its seven bytes are read (R82). -/
theorem handledAs_setup (c : Config) (b1 b2 b3 b4 b5 b6 : Byte) :
    HandledAs c (setupInstr c b1 b2 b3 b4 b5 b6) (fun u =>
      if checksum [c.cmdSetup, b1, b2, b3, b4, b5] = b6 then setupSubcommands c b1 b2 b3 b4 b5 u
      else .ok (.discard, u)) := by
  have hgood : (setupInstr c b1 b2 b3 b4 b5 b6).checksumGood c = true ↔ checksum [c.cmdSetup, b1, b2, b3, b4, b5] = b6 := by
    rw [checksumGood_setupInstr, beq_iff_eq]
  have hbody {k : State → Except Fault State} (hk : ∀ u, setupSubcommands c b1 b2 b3 b4 b5 u = returnDone (k u)) (u : State) :
      (if checksum [c.cmdSetup, b1, b2, b3, b4, b5] = b6 then setupSubcommands c b1 b2 b3 b4 b5 u
        else .ok (.discard, u)) =
        if (setupInstr c b1 b2 b3 b4 b5 b6).checksumGood c then returnDone (k u) else .ok (.discard, u) := by
    simp only [hgood, hk]
  by_cases h0 : b1 = subSetupConfig
  · refine ⟨effectSetupConfig b2 b3 b4 b5, ?_, hbody fun u => if_pos h0⟩
    rintro s rfl
    simp only [setupInstr, h0, if_true]
    rfl
  by_cases h1 : b1 = c.subSetupPrice
  · refine ⟨effectSetupPrice (be16 b2 b3) (be16 b4 b5), ?_, hbody fun u => (if_neg h0).trans (if_pos h1)⟩
    rintro s rfl
    simp only [setupInstr, if_neg h0, if_pos h1]
    rfl
  · refine ⟨.ok, ?_, hbody fun u => (if_neg h0).trans (if_neg h1)⟩
    rintro s rfl
    simp only [setupInstr, if_neg h0, if_neg h1]
    rfl

/-- SETUP (R82). -/
theorem endsAs_setupHandler {s : State} {w : Word} {ws : List Word} (hc : s.cfg.wf = true) (hq : s.rxq = w :: ws)
    (h0 : strip w = s.cfg.cmdSetup) : EndsAs (setupHandler s) (activationLabel s) (step s) := by
  have hd : decode s.cfg s.rxq = decodeSetup s.cfg s.rxq := by rw [hq, decode_setup _ hc h0]
  unfold setupHandler rxCount
  split
  next hshort => exact endsAs_of_wait hc (hd.trans (decodeSetup_short _ hshort))
  next hlong =>
    cases hf : decodeSetup s.cfg s.rxq with
    | empty => cases hq.symm.trans (decode_eq_empty.1 (hd.trans hf))
    | wait n => exact absurd (decodeSetup_eq_wait.1 hf).1 hlong
    | frame i =>
      have hi := hd.trans hf
      rw [hq] at hf
      obtain ⟨b1, b2, b3, b4, b5, b6, rfl, -⟩ := decodeSetup_eq_frame hf
      have hread := readBytes_of_decode hi (by rw [consumed_setupInstr]; decide)
      have hends := endsAs_of_handledAs hc hi (by rw [consumed_setupInstr]; decide) (handledAs_setup ..)
      rw [consumed_setupInstr] at hread hends
      rw [hread, bytes_setupInstr]
      exact hends

/-- READER once its two bytes are read (R110). -/
theorem handledAs_reader (c : Config) (b1 : Byte) : HandledAs c (readerInstr c b1) (readerSubcommands c b1) := by
  unfold readerInstr readerSubcommands
  split_ifs
  · exact handledAs_of_no_checksum effectReaderDisable (fun _ => rfl) rfl
  · exact handledAs_of_no_checksum effectReaderEnable (fun _ => rfl) rfl
  · exact handledAs_of_no_checksum effectReaderCancel (fun _ => rfl) rfl
  · exact handledAs_of_no_checksum .ok (fun _ => rfl) rfl

/-- READER (R110). -/
theorem endsAs_readerHandler {s : State} {w : Word} {ws : List Word} (hc : s.cfg.wf = true) (hq : s.rxq = w :: ws)
    (h0 : strip w = s.cfg.cmdReader) : EndsAs (readerHandler s) (activationLabel s) (step s) := by
  have hd : decode s.cfg s.rxq = decodeReader s.cfg s.rxq := by rw [hq, decode_reader _ hc h0]
  unfold readerHandler rxCount
  split
  next hshort => exact endsAs_of_wait hc (hd.trans (decodeReader_eq_wait.2 ⟨hshort, rfl⟩))
  next hlong =>
    cases ws with
    | nil => rw [hq] at hlong; simp at hlong
    | cons w1 rest =>
      have hi : decode s.cfg s.rxq = .frame (readerInstr s.cfg (strip w1)) := by rw [hd, hq, decodeReader_cons]
      have hread := readBytes_of_decode hi (by rw [consumed_readerInstr]; decide)
      have hends := endsAs_of_handledAs hc hi (by rw [consumed_readerInstr]; decide) (handledAs_reader ..)
      rw [consumed_readerInstr] at hread hends
      rw [hread, bytes_readerInstr]
      exact hends

/-- VEND once the bytes of its length are read (R100 to R109). -/
theorem handledAs_vend {c : Config} {sub : Byte} {rest : List Word} {i : Instr} (h : decodeVendSub c sub rest = .frame i) :
    i.consumed = vendLength c sub ∧ HandledAs c i (vendSubcommands c sub (i.bytes c)) := by
  unfold decodeVendSub at h
  unfold vendSubcommands vendLength
  split_ifs at h ⊢
  · split at h
    next =>
      cases h
      refine ⟨rfl, effectVendRequest _ _, by rintro s rfl; rfl, fun u => ?_⟩
      simp [vendRequestBody, Instr.bytes, Instr.checksumGood, Instr.body, Instr.receivedChecksum]
    next => cases h
  · cases h; exact ⟨rfl, handledAs_of_no_checksum effectVendCancel (fun _ => rfl) rfl⟩
  · split at h
    next =>
      cases h
      refine ⟨rfl, acknowledge, by rintro s rfl; rfl, fun u => ?_⟩
      simp [vendSuccessBody, Instr.bytes, Instr.checksumGood, Instr.body, Instr.receivedChecksum]
    next => cases h
  · cases h; exact ⟨rfl, handledAs_of_no_checksum acknowledge (fun _ => rfl) rfl⟩
  · cases h; exact ⟨rfl, handledAs_of_no_checksum effectVendSessionComplete (fun _ => rfl) rfl⟩
  · cases h; exact ⟨rfl, handledAs_of_no_checksum .ok (fun _ => rfl) rfl⟩
  · cases h; exact ⟨rfl, handledAs_of_no_checksum .ok (fun _ => rfl) rfl⟩

theorem vendLength_ne_zero (c : Config) (sub : Byte) : vendLength c sub ≠ 0 := by
  unfold vendLength
  split_ifs <;> decide

/-- VEND (R100). -/
theorem endsAs_vendHandler {s : State} {w : Word} {ws : List Word} (hc : s.cfg.wf = true) (hq : s.rxq = w :: ws)
    (h0 : strip w = s.cfg.cmdVend) : EndsAs (vendHandler s) (activationLabel s) (step s) := by
  cases ws with
  | nil =>
    have hd : decode s.cfg s.rxq = .wait 1 := by rw [hq, decode_vend _ hc h0, decodeVend_one]
    simp only [vendHandler, rxCount, hq]
    exact endsAs_of_wait hc hd
  | cons w1 rest =>
    have hd : decode s.cfg s.rxq = decodeVendSub s.cfg (strip w1) rest := by rw [hq, decode_vend _ hc h0, decodeVend_cons]
    have hcount : rxCount s = rest.length + 2 := by simp [rxCount, hq]
    have hpeek : rxPeek 1 s = .ok w1 := by simp [rxPeek, hq]
    simp only [vendHandler, hpeek, if_neg (show ¬ rxCount s < 2 by omega)]
    split
    next hshort => exact endsAs_of_wait hc (hd.trans (decodeVendSub_eq_wait.2 (by omega)))
    next hlong =>
      cases hf : decodeVendSub s.cfg (strip w1) rest with
      | empty => cases hq.symm.trans (decode_eq_empty.1 (hd.trans hf))
      | wait n => have hlt := (decodeVendSub_eq_wait.1 hf).1; omega
      | frame i =>
        obtain ⟨hlen, hhandled⟩ := handledAs_vend hf
        have hi : i.consumed ≠ 0 := hlen ▸ vendLength_ne_zero _ _
        rw [← hlen, readBytes_of_decode (hd.trans hf) hi]
        exact endsAs_of_handledAs hc (hd.trans hf) hi hhandled

/-- The dispatcher (R70 to R73). -/
theorem endsAs_activate {s : State} (hc : s.cfg.wf = true) : EndsAs (activate s) (activationLabel s) (step s) := by
  cases hq : s.rxq with
  | nil =>
    have hd : decode s.cfg s.rxq = .empty := by rw [hq, decode_nil]
    have hact : activate s = .ok (.idle, s) := by simp [activate, rxCount, hq]
    rw [hact, step_of_decode_empty hc hd, activationLabel_of_decode hd]
    exact endsAs_ok .idle s
  | cons w ws =>
    have hcount : rxCount s ≠ 0 := by simp [rxCount, hq]
    have hpeek : rxPeek 0 s = .ok w := by simp [rxPeek, hq]
    simp only [activate, hpeek, if_neg hcount]
    split_ifs with h0 h1 h2 h3 h4
    · exact endsAs_resetHandler hc (by rw [hq, decode_reset _ h0])
    · exact endsAs_setupHandler hc hq h1
    · exact endsAs_pollHandler hc (by rw [hq, decode_poll _ hc h2])
    · exact endsAs_vendHandler hc hq h3
    · exact endsAs_readerHandler hc hq h4
    · obtain ⟨hstep, hlabel⟩ := unknownHeadIsLeftPending s w ws hc hq h0 h1 h2 h3 h4
      rw [hstep, hlabel]
      exact endsAs_ok .idle s

/-- Settles O39: `endsAs_activate`. -/
theorem stepRefinesSpecPseudocode : Obligations.StepRefinesSpecPseudocode := fun _ hc => endsAs_activate hc

end Sys2Proof.Machine
end

-- What a step can do, and its faults (60_exceptions.md R121, R128; 20_memory.md R36). A response is never empty and never longer than
-- 34 words (30_encoding.md R49).
section
namespace Sys2Proof.Machine

/-- All that a next state of a step can be. -/
theorem step_eq_next {s t : State} : step s = .next t ↔ s.cfg.wf = true ∧
    (((∀ i, decode s.cfg s.rxq ≠ .frame i) ∧ t = s) ∨ ∃ i, decode s.cfg s.rxq = .frame i ∧ exec i s = .next t) := by
  unfold step
  cases s.cfg.wf with
  | false => simp
  | true => cases decode s.cfg s.rxq <;> simp [eq_comm]

/-- All that a fault of a step can be. -/
theorem step_eq_fault {s : State} {f : Fault} : step s = .fault f ↔
    s.cfg.wf = true ∧ ∃ i, decode s.cfg s.rxq = .frame i ∧ exec i s = .fault f := by
  unfold step
  cases s.cfg.wf with
  | false => simp
  | true => cases decode s.cfg s.rxq <;> simp

theorem step_eq_refused {s : State} {r : Refusal} : step s = .refused r ↔ s.cfg.wf = false ∧ r = .illFormedConfig := by
  unfold step
  cases s.cfg.wf with
  | false => simp [eq_comm]
  | true => cases decode s.cfg s.rxq <;> simp [exec_ne_refused]

/-- A response by R58 and R60: terminated, and only there. -/
theorem isResponse_responseWords {bs : List Byte} (chk : Bool) (h : bs ≠ []) : isResponse (responseWords bs chk) = true := by
  have hconcat (front : List Byte) (b : Byte) : isResponse (terminatedWords (front ++ [b])) = true := by
    simp [isResponse, terminatedWords_concat]
  cases chk with
  | true => exact hconcat bs _
  | false =>
    obtain ⟨front, b, rfl⟩ := (List.eq_nil_or_concat' bs).resolve_left h
    exact hconcat front b

/-- The longest poll response is a display message of 32 bytes behind its two first bytes (R92). -/
theorem length_pollResponse (c : Config) (dc : DisplayConfig) (message : Nat → Byte) (amount : Half) (pe : PollEvent) :
    (pollResponse c dc message amount pe).1.length + (pollResponse c dc message amount pe).2.toNat ≤ 34 := by
  cases pe with
  | displayRequest =>
    have hcap : displayLength dc ≤ 32 := Nat.min_le_right _ _
    have hlen : (pollResponse c dc message amount .displayRequest).1.length = displayLength dc + 2 := by simp [pollResponse]
    rw [hlen]
    exact Nat.add_le_add_right hcap 2
  | _ => simp [pollResponse, Identity.bytesFromFeatureLevel]

theorem pollResponse_ne_nil (c : Config) (dc : DisplayConfig) (message : Nat → Byte) (amount : Half) (pe : PollEvent) :
    (pollResponse c dc message amount pe).1 ≠ [] := by
  cases pe <;> simp [pollResponse]

/-- Nothing, or one response of R60 that is no longer than the longest of R49. -/
def NothingOrResponse (ws : List Word) : Prop :=
  ws = [] ∨ ∃ (bs : List Byte) (chk : Bool), bs ≠ [] ∧ bs.length + chk.toNat ≤ 34 ∧ ws = responseWords bs chk

theorem nothingOrResponse_of_one {ws : List Word} {b : Byte} (h : ws = [terminate b]) : NothingOrResponse ws :=
  .inr ⟨[b], false, by simp, by simp, h⟩

/-- Every reply is empty or a response of R60. -/
theorem replyWords_cases (s : State) (i : Instr) : NothingOrResponse (replyWords s i) := by
  cases hgood : i.checksumGood s.cfg with
  | false => exact .inl (replyWords_of_bad hgood)
  | true =>
    cases i with
    | setupConfig => exact .inr ⟨s.cfg.identity.bytes, true, by simp [Identity.bytes], by simp [Identity.bytes], if_pos hgood⟩
    | poll => exact .inr ⟨_, _, pollResponse_ne_nil _ _ _ _ _, length_pollResponse .., rfl⟩
    | reset | setupPrice | vendCancel | vendSuccess | vendFailure | vendSessionComplete | readerDisable | readerEnable
    | readerCancel => exact nothingOrResponse_of_one (if_pos hgood)
    | _ => exact .inl (if_pos hgood)

theorem length_replyWords_le (s : State) (i : Instr) : (replyWords s i).length ≤ 34 := by
  obtain hnil | ⟨bs, chk, -, hlen, heq⟩ := replyWords_cases s i
  · simp [hnil]
  · rwa [heq, length_responseWords]

theorem isResponse_replyWords {s : State} {i : Instr} (h : replyWords s i ≠ []) : isResponse (replyWords s i) = true := by
  obtain ⟨bs, chk, hne, -, heq⟩ := (replyWords_cases s i).resolve_left h
  rw [heq]
  exact isResponse_responseWords chk hne

/-- No room: the capacity is finite and would be exceeded (R36). -/
theorem txRoom_eq_false {n : Nat} {s : State} : txRoom n s = false ↔
    ∃ k, s.cfg.txCapacity = some k ∧ k < s.txq.length + n := by
  unfold txRoom
  split
  next k hk => simp [hk]
  next hk => simp [hk]

/-- A complete frame has its words pending, so the only fault left is R36's. -/
theorem exec_fault_of_decode {s : State} {i : Instr} {f : Fault} (hd : decode s.cfg s.rxq = .frame i)
    (h : exec i s = .fault f) : f = .txqFull ∧ txRoom (replyWords s i).length s = false := by
  have hq := consumed_le_of_decode hd
  obtain ⟨hshort, -⟩ | ⟨-, -, hfull, hf⟩ := exec_eq_fault.1 h
  · omega
  · exact ⟨hf, hfull⟩

/-- Settles O41: `replyWords_cases`. -/
theorem repliesAreWholeResponses : Obligations.RepliesAreWholeResponses := by
  intro s i
  by_cases h : replyWords s i = []
  · exact .inl h
  · exact .inr ⟨isResponse_replyWords h, length_replyWords_le s i⟩

/-- Settles O51: a fault comes from an executed frame without room for its reply; an unbounded queue always has room. -/
theorem activationFaultsOnlyOnFullQueue : Obligations.ActivationFaultsOnlyOnFullQueue := by
  intro s hc
  refine ⟨fun f hf => ?_, fun hcap => ?_⟩
  · obtain ⟨-, i, hd, hi⟩ := step_eq_fault.1 hf
    obtain ⟨rfl, hfull⟩ := exec_fault_of_decode hd hi
    obtain ⟨k, hk, hlt⟩ := txRoom_eq_false.1 hfull
    have hlen := length_replyWords_le s i
    exact ⟨rfl, k, hk, by omega⟩
  · cases hd : decode s.cfg s.rxq with
    | empty => exact ⟨s, step_of_decode_empty hc hd⟩
    | wait n => exact ⟨s, step_of_decode_wait hc hd⟩
    | frame i =>
      rw [step_of_decode_frame hc hd]
      exact ⟨_, exec_next (consumed_le_of_decode hd) (.inr (txRoom_of_unbounded hcap _))⟩

/-- Settles O52: `step_eq_refused`. -/
theorem stepRefusesIllFormedConfig : Obligations.StepRefusesIllFormedConfig := fun _ =>
  ⟨fun hc => step_eq_refused.2 ⟨hc, rfl⟩, fun _ h => (step_eq_refused.1 h).1⟩

/-- Settles O30: the branches of the step. -/
theorem stepRunsDecodedInstruction : Obligations.StepRunsDecodedInstruction := fun _ hc =>
  ⟨fun _ => step_of_decode_frame hc, fun _ => step_of_decode_wait hc, decode_eq_empty,
    fun hq => step_of_decode_empty hc (decode_eq_empty.2 hq)⟩

end Sys2Proof.Machine
end

-- The invariant `State.sound` (00_scope.md R7, 20_memory.md R36, 40_codec.md R58) and the stall of R136 over runs of host
-- interactions (60_exceptions.md R125).
section
namespace Sys2Proof.Machine

theorem sound_iff (s : State) : s.sound = true ↔ s.cfg.wf = true ∧ withinCapacity s.cfg.rxCapacity s.rxq = true ∧
    withinCapacity s.cfg.txCapacity s.txq = true ∧ terminatedQueue s.txq = true := by
  simp [State.sound, and_assoc]

theorem withinCapacity_drop {cap : Option Nat} {q : List Word} (n : Nat) (h : withinCapacity cap q = true) :
    withinCapacity cap (q.drop n) = true := by
  cases cap with
  | none => rfl
  | some k =>
    simp only [withinCapacity, decide_eq_true_eq, List.length_drop] at h ⊢
    omega

theorem withinCapacity_append_of_txRoom {s : State} {ws : List Word} (h : txRoom ws.length s = true) :
    withinCapacity s.cfg.txCapacity (s.txq ++ ws) = true := by
  cases hcap : s.cfg.txCapacity with
  | none => rfl
  | some k =>
    simp only [txRoom, hcap, decide_eq_true_eq] at h
    simpa only [withinCapacity, List.length_append, decide_eq_true_eq] using h

theorem withinCapacity_concat_of_rxRoom {s : State} (w : Word) (h : rxRoom s = true) :
    withinCapacity s.cfg.rxCapacity (s.rxq ++ [w]) = true := by
  cases hcap : s.cfg.rxCapacity with
  | none => rfl
  | some k =>
    simp only [rxRoom, hcap, decide_eq_true_eq] at h
    rw [withinCapacity, decide_eq_true_eq, List.length_append]
    exact h

theorem terminatedQueue_append_response (q : List Word) {ws : List Word} (h : isResponse ws = true) :
    terminatedQueue (q ++ ws) = true := by
  unfold isResponse at h
  unfold terminatedQueue
  rw [List.getLast?_append]
  cases hlast : ws.getLast? with
  | none => simp [hlast] at h
  | some w =>
    simp only [hlast, Bool.and_eq_true] at h
    exact h.1

/-- Draining takes words from the head only. -/
theorem terminatedQueue_drop {q : List Word} (n : Nat) (h : terminatedQueue q = true) : terminatedQueue (q.drop n) = true := by
  by_cases hn : n < q.length
  · unfold terminatedQueue at h ⊢
    rwa [List.getLast?_drop, if_neg (by omega)]
  · rw [List.drop_eq_nil_of_le (by omega)]
    rfl

/-- An executed frame keeps the invariant: RXQ shrinks, and TXQ gains nothing or a whole response that fits. -/
theorem frameResult_sound {s : State} (i : Instr) (hs : s.sound = true)
    (hroom : replyWords s i = [] ∨ txRoom (replyWords s i).length s = true) : (frameResult i s).sound = true := by
  obtain ⟨hc, hrx, htx, hterm⟩ := (sound_iff s).1 hs
  rw [sound_iff, frameResult_cfg, frameResult_rxq, frameResult_txq]
  refine ⟨hc, withinCapacity_drop _ hrx, ?_⟩
  by_cases hnil : replyWords s i = []
  · rw [hnil, List.append_nil]
    exact ⟨htx, hterm⟩
  · exact ⟨withinCapacity_append_of_txRoom (hroom.resolve_left hnil),
      terminatedQueue_append_response _ (isResponse_replyWords hnil)⟩

/-- Settles O54: at rest nothing changes, and an executed frame keeps the invariant. -/
theorem stepKeepsSound : Obligations.StepKeepsSound := by
  intro s t hs h
  obtain ⟨-, ⟨-, rfl⟩ | ⟨i, -, hi⟩⟩ := step_eq_next.1 h
  · exact hs
  · obtain ⟨-, hroom, rfl⟩ := exec_eq_next.1 hi
    exact frameResult_sound i hs hroom

theorem powerUp_sound {c : Config} (h : c.wf = true) : (State.powerUp c).sound = true := by
  rw [sound_iff]
  refine ⟨h, ?_, ?_, rfl⟩
  · cases hcap : c.rxCapacity <;> simp [withinCapacity, hcap]
  · cases hcap : c.txCapacity <;> simp [withinCapacity, hcap]

/-- Settles O53: `powerUp_sound`, for EX too. -/
theorem soundAtPowerUp : Obligations.SoundAtPowerUp :=
  ⟨fun _ => powerUp_sound, powerUp_sound (by decide)⟩

/-- All that a host interaction can do when it answers a next state (R125). -/
theorem hostStep_cases {a : HostAction} {s t : State} (h : hostStep a s = .next t) : s.cfg.wf = true ∧
    ((∃ w, rxRoom s = true ∧ t = s.withRxq (s.rxq ++ [w])) ∨ t = s.withTxq (s.txq.drop 1) ∨ step s = .next t ∨
      (∃ p, t = s.withPe p) ∨ (a = .powerUp ∧ t = (State.powerUp s.cfg).withDrawCount s.drawCount) ∨ t = s) := by
  unfold hostStep at h
  split at h
  next hc =>
    refine ⟨hc, ?_⟩
    cases a with
    | arrive w =>
      simp only [hostArrive] at h
      split at h
      next hroom => cases h; exact .inl ⟨w, hroom, rfl⟩
      next => cases h
    | drain => cases h; exact .inr (.inl rfl)
    | activate => exact .inr (.inr (.inl h))
    | postEvent e =>
      simp only [hostPostEvent] at h
      split at h
      next p _ => cases h; exact .inr (.inr (.inr (.inl ⟨p, rfl⟩)))
      next => cases h
    | powerUp => cases h; exact .inr (.inr (.inr (.inr (.inl ⟨rfl, rfl⟩))))
    | observe => cases h; exact .inr (.inr (.inr (.inr (.inr rfl))))
  next => cases h

/-- A run that answers a next state begins with an interaction that does. -/
theorem runHost_cons_eq_next {a : HostAction} {acts : List HostAction} {s t : State} (h : runHost (a :: acts) s = .next t) :
    ∃ u, hostStep a s = .next u ∧ runHost acts u = .next t := by
  change (match hostStep a s with
    | .next u => runHost acts u
    | .fault f => .fault f
    | .refused r => .refused r) = _ at h
  split at h
  next u hu => exact ⟨u, hu, h⟩
  next => cases h
  next => cases h

/-- What every interaction of a run keeps, the run keeps. -/
theorem runHost_invariant {P : State → Prop} {acts : List HostAction}
    (hP : ∀ a ∈ acts, ∀ s t : State, P s → hostStep a s = .next t → P t) {s t : State} (hs : P s)
    (h : runHost acts s = .next t) : P t := by
  induction acts generalizing s with
  | nil => cases h; exact hs
  | cons a acts ih =>
    obtain ⟨u, hu, hrest⟩ := runHost_cons_eq_next h
    exact ih (fun b hb => hP b (List.mem_cons_of_mem a hb)) (hP a List.mem_cons_self s u hs hu) hrest

theorem hostStep_keeps_sound (a : HostAction) (s t : State) (hs : s.sound = true) (h : hostStep a s = .next t) :
    t.sound = true := by
  obtain ⟨hc, hrx, htx, hterm⟩ := (sound_iff s).1 hs
  obtain ⟨-, ⟨w, hroom, rfl⟩ | rfl | hstep | ⟨p, rfl⟩ | ⟨-, rfl⟩ | rfl⟩ := hostStep_cases h
  · exact (sound_iff _).2 ⟨hc, withinCapacity_concat_of_rxRoom w hroom, htx, hterm⟩
  · exact (sound_iff _).2 ⟨hc, hrx, withinCapacity_drop 1 htx, terminatedQueue_drop 1 hterm⟩
  · exact stepKeepsSound s t hs hstep
  · exact (sound_iff _).2 ⟨hc, hrx, htx, hterm⟩
  · exact powerUp_sound hc
  · exact hs

/-- Settles O55: the invariant over a run, interaction by interaction. -/
theorem hostRunKeepsSound : Obligations.HostRunKeepsSound := fun _ _ _ hs h =>
  runHost_invariant (P := fun u => u.sound = true) (fun a _ u v => hostStep_keeps_sound a u v) hs h

theorem stalled_iff (s : State) : s.stalled = true ↔ ∃ w ws, s.rxq = w :: ws ∧ strip w ≠ s.cfg.cmdReset ∧
    strip w ≠ s.cfg.cmdSetup ∧ strip w ≠ s.cfg.cmdPoll ∧ strip w ≠ s.cfg.cmdVend ∧ strip w ≠ s.cfg.cmdReader := by
  unfold State.stalled
  split
  next w ws hq => simp [hq]
  next hq => simp [hq]

/-- A stalled block has the IDLE activation only (R73). -/
theorem step_of_stalled {s : State} (hc : s.cfg.wf = true) (h : s.stalled = true) : step s = .next s := by
  obtain ⟨w, ws, hq, h0, h1, h2, h3, h4⟩ := (stalled_iff s).1 h
  exact (unknownHeadIsLeftPending s w ws hc hq h0 h1 h2 h3 h4).1

/-- `t` is as stalled as `s` was: the same head, registers as they were, TXQ drained at most (R136). -/
def StalledSince (s t : State) : Prop :=
  t.stalled = true ∧ t.rxq.head? = s.rxq.head? ∧ t.dc = s.dc ∧ t.pl = s.pl ∧ t.rs = s.rs ∧ ∃ k : Nat, t.txq = s.txq.drop k

theorem hostStep_keeps_stall {a : HostAction} {s u v : State} (ha : a ≠ .powerUp) (hu : StalledSince s u)
    (h : hostStep a u = .next v) : StalledSince s v := by
  obtain ⟨hst, hhead, hdc, hpl, hrs, k, hk⟩ := hu
  obtain ⟨hc, ⟨w, -, rfl⟩ | rfl | hstep | ⟨p, rfl⟩ | ⟨hpow, -⟩ | rfl⟩ := hostStep_cases h
  · obtain ⟨w0, ws, hq, hcodes⟩ := (stalled_iff u).1 hst
    refine ⟨(stalled_iff _).2 ⟨w0, ws ++ [w], by rw [State.withRxq_rxq, hq]; rfl, hcodes⟩, ?_, hdc, hpl, hrs, k, hk⟩
    rw [← hhead, State.withRxq_rxq, hq]
    rfl
  · exact ⟨hst, hhead, hdc, hpl, hrs, k + 1, by rw [State.withTxq_txq, hk, List.drop_drop]⟩
  · rw [step_of_stalled hc hst] at hstep
    cases hstep
    exact ⟨hst, hhead, hdc, hpl, hrs, k, hk⟩
  · exact ⟨hst, hhead, hdc, hpl, hrs, k, hk⟩
  · exact absurd hpow ha
  · exact ⟨hst, hhead, hdc, hpl, hrs, k, hk⟩

/-- Settles O56: the stall over a run without power-up, interaction by interaction. -/
theorem unknownHeadStallsForever : Obligations.UnknownHeadStallsForever := by
  intro acts s t hs hacts h
  have hstart : StalledSince s s := ⟨hs, rfl, rfl, rfl, rfl, 0, rfl⟩
  have hkeeps (a : HostAction) (ha : a ∈ acts) (u v : State) (hu : StalledSince s u) (hv : hostStep a u = .next v) :
      StalledSince s v :=
    hostStep_keeps_stall (fun hpow => hacts (hpow ▸ ha)) hu hv
  exact runHost_invariant hkeeps hstart h

theorem decodePollEvent_of_le {e : BitVec 4} (h : 14 ≤ e.toNat) : decodePollEvent e = none := by
  have hall : ∀ e : BitVec 4, 14 ≤ e.toNat → decodePollEvent e = none := by decide
  exact hall e h

/-- Settles O57: the interactions one by one. -/
theorem hostInteractionEffects : Obligations.HostInteractionEffects := by
  intro s hc
  refine ⟨fun w hroom => ?_, fun w hroom => ?_, ?_, ?_, fun p => ?_, fun e he => ?_, ?_, ?_⟩
  · simp only [hostStep, hc, if_true, hostArrive, hroom, State.withRxq]
  · simp [hostStep, hc, hostArrive, hroom]
  · simp [hostStep, hc, hostDrain, State.withTxq]
  · simp only [hostStep, hc, if_true]
  · simp only [hostStep, hc, if_true, hostPostEvent, decodePollEvent_encode, State.withPe]
  · simp only [hostStep, hc, if_true, hostPostEvent, decodePollEvent_of_le he]
  · simp only [hostStep, hc, if_true, hostPowerUp, State.withDrawCount]
  · simp only [hostStep, hc, if_true]

end Sys2Proof.Machine
end

-- Who writes each register (10_state.md R23 to R27), read off `registersWritten`.
section
namespace Sys2Proof.Machine

@[simp] theorem frameResult_dc (i : Instr) (s : State) : (frameResult i s).dc = (registersAfter i s).dc := rfl

@[simp] theorem frameResult_pl (i : Instr) (s : State) : (frameResult i s).pl = (registersAfter i s).pl := rfl

@[simp] theorem frameResult_rs (i : Instr) (s : State) : (frameResult i s).rs = (registersAfter i s).rs := rfl

@[simp] theorem frameResult_pe (i : Instr) (s : State) : (frameResult i s).pe = (registersAfter i s).pe := rfl

@[simp] theorem frameResult_drawCount (i : Instr) (s : State) :
    (frameResult i s).drawCount = (registersAfter i s).drawCount := rfl

/-- Settles O43: the frames that write DC, then those that write PL; a wrong checksum writes nothing. -/
theorem displayAndPriceWriters : Obligations.DisplayAndPriceWriters := by
  intro i s t h
  obtain ⟨-, -, rfl⟩ := exec_eq_next.1 h
  rw [frameResult_dc, frameResult_pl]
  cases hgood : i.checksumGood s.cfg with
  | false =>
    rw [registersAfter_of_bad hgood]
    exact ⟨.inl rfl, .inl rfl⟩
  | true =>
    rw [registersAfter_of_good hgood]
    cases i with
    | reset => exact ⟨.inr (.inl ⟨rfl, rfl⟩), .inr (.inl ⟨rfl, rfl⟩)⟩
    | setupConfig => exact ⟨.inr (.inr ⟨_, _, _, _, _, rfl, rfl, rfl⟩), .inl rfl⟩
    | setupPrice => exact ⟨.inl rfl, .inr (.inr ⟨_, _, _, rfl, rfl, rfl⟩)⟩
    | _ => exact ⟨.inl rfl, .inl rfl⟩

/-- Settles O44: SETUP.PRICE is the one writer with a checksum; five others always write, the rest keep RS. -/
theorem readerStateWriters : Obligations.ReaderStateWriters := by
  intro i s t h
  obtain ⟨-, -, rfl⟩ := exec_eq_next.1 h
  rw [frameResult_rs]
  cases i with
  | setupPrice => exact apply_ite State.rs ..
  | reset | vendCancel | vendSessionComplete | readerDisable | readerEnable => rfl
  | _ => exact registersAfter_field State.rs rfl

/-- Settles O45: the three writers; the answer of VEND.REQUEST is one of two events. -/
theorem pendingEventWriters : Obligations.PendingEventWriters := by
  intro i s t h
  obtain ⟨-, -, rfl⟩ := exec_eq_next.1 h
  rw [frameResult_pe]
  cases hgood : i.checksumGood s.cfg with
  | false =>
    rw [registersAfter_of_bad hgood]
    exact .inl rfl
  | true =>
    rw [registersAfter_of_good hgood]
    cases i with
    | reset => exact .inr (.inl ⟨rfl, rfl⟩)
    | poll => exact .inr (.inr (.inl ⟨rfl, rfl⟩))
    | vendRequest price item chk =>
      have hanswer (d : AuthAnswer) : answerEvent d = .vendApproved ∨ answerEvent d = .vendDenied := by
        cases d
        · exact .inl rfl
        · exact .inr rfl
      exact .inr (.inr (.inr ⟨⟨price, item, chk, rfl⟩, rfl, hanswer _⟩))
    | _ => exact .inl rfl

theorem map_strip_responseWords (bs : List Byte) (chk : Bool) :
    (responseWords bs chk).map strip = bs ++ if chk then [checksum bs] else [] := by
  cases chk <;> simp [responseWords]

/-- The response to an event begins with its code (R88). -/
theorem pollResponse_head {c : Config} {pe : PollEvent} {code : Byte} (h : eventCode c pe = some code) (dc : DisplayConfig)
    (message : Nat → Byte) (amount : Half) : ((pollResponse c dc message amount pe).1).head? = some code := by
  cases pe with
  | none => cases h
  | _ => exact h

/-- Settles O46: the response's first byte is the event's code; NONE, which the poll leaves, is answered by the acknowledge. -/
theorem pollReportsEventOnce : Obligations.PollReportsEventOnce := by
  intro s t h
  obtain ⟨-, -, rfl⟩ := exec_eq_next.1 h
  refine ⟨rfl, fun code hcode => ?_, fun u hu => ?_⟩
  · have hreply : replyWords s .poll = responseWords (pollResponse s.cfg s.dc (Config.freeMessageByte s.drawCount)
      (Config.freeVendAmount s.drawCount) s.pe).1 _ := rfl
    rw [frameResult_txq, List.drop_left, ← List.head?_map, hreply, map_strip_responseWords, List.head?_append,
      pollResponse_head hcode]
    rfl
  · obtain ⟨-, -, rfl⟩ := exec_eq_next.1 hu
    rfl

end Sys2Proof.Machine
end

-- Noninterference: arrivals behind a frame (20_memory.md R37), inbound mode bits (30_encoding.md R41), and the registers that no rule
-- reads (10_state.md R23, R25, R26).
section
namespace Sys2Proof.Machine

theorem registersAfter_withRxq (i : Instr) (s : State) (q : List Word) :
    registersAfter i (s.withRxq q) = (registersAfter i s).withRxq q := by
  cases hgood : i.checksumGood s.cfg with
  | false => rw [registersAfter_of_bad hgood, registersAfter_of_bad (s := s.withRxq q) hgood]
  | true =>
    rw [registersAfter_of_good hgood, registersAfter_of_good (s := s.withRxq q) hgood]
    cases i <;> rfl

/-- The words pending decide nothing but what is left of them. -/
theorem frameResult_withRxq (i : Instr) (s : State) (q : List Word) :
    frameResult i (s.withRxq q) = (frameResult i s).withRxq (q.drop i.consumed) := by
  rw [frameResult, registersAfter_withRxq]
  rfl

/-- A meaning reads of RXQ only whether its words are there. -/
theorem exec_withRxq_next {i : Instr} {s t : State} {q : List Word} (hq : i.consumed ≤ q.length) (h : exec i s = .next t) :
    exec i (s.withRxq q) = .next (t.withRxq (q.drop i.consumed)) := by
  obtain ⟨-, hroom, rfl⟩ := exec_eq_next.1 h
  exact exec_eq_next.2 ⟨hq, hroom, (frameResult_withRxq i s q).symm⟩

theorem exec_withRxq_fault {i : Instr} {s : State} {q : List Word} {f : Fault} (hq : q.length = s.rxq.length)
    (h : exec i s = .fault f) : exec i (s.withRxq q) = .fault f := by
  rw [exec_eq_fault] at h ⊢
  rwa [State.withRxq_rxq, hq]

/-- A frame that is complete stays what it is when more words arrive (R37). -/
theorem decode_append {c : Config} {ws : List Word} {i : Instr} (hc : c.wf = true) (h : decode c ws = .frame i)
    (more : List Word) : decode c (ws ++ more) = .frame i := by
  obtain ⟨hi, hpre⟩ := wf_and_bytes_prefix_of_decode h
  apply decode_of_prefix hc hi
  rw [List.map_append]
  exact hpre.trans (List.prefix_append ..)

/-- Settles O48: the frame is decoded and executed as before; the words left keep the arrivals behind them. -/
theorem arrivalDoesNotDisturbFrame : Obligations.ArrivalDoesNotDisturbFrame := by
  intro s t i more hd h
  obtain ⟨hc, -⟩ := step_eq_next.1 h
  have hlen := consumed_le_of_decode hd
  have hlen' : i.consumed ≤ (s.rxq ++ more).length := by
    rw [List.length_append]
    omega
  rw [step_of_decode_frame hc hd] at h
  have hrx := (executedFrameQueues i s t h).2.1
  calc step (s.withRxq (s.rxq ++ more))
    _ = exec i (s.withRxq (s.rxq ++ more)) := step_of_decode_frame hc (decode_append hc hd more)
    _ = .next (t.withRxq ((s.rxq ++ more).drop i.consumed)) := exec_withRxq_next hlen' h
    _ = .next (t.withRxq (t.rxq ++ more)) := by rw [List.drop_append_of_le_length hlen, hrx]

/-- Settles O49: the decoder sees data bytes only, and a meaning removes the same number of words from both queues. -/
theorem inboundModeBitsAreIgnored : Obligations.InboundModeBitsAreIgnored := by
  intro s q hq
  have hdec : decode s.cfg q = decode s.cfg s.rxq := decode_congr s.cfg hq
  have hlen : q.length = s.rxq.length := by simpa using congrArg List.length hq
  refine ⟨activationLabel_of_decode (s := s.withRxq q) hdec, fun t ht => ?_, fun f hf => ?_⟩
  · obtain ⟨hc, ⟨hnone, rfl⟩ | ⟨i, hd, hi⟩⟩ := step_eq_next.1 ht
    · have hnone' (i : Instr) : decode t.cfg q ≠ .frame i := hdec ▸ hnone i
      exact ⟨q, hq, step_eq_next.2 ⟨hc, .inl ⟨hnone', rfl⟩⟩⟩
    · have hle : i.consumed ≤ q.length := hlen ▸ consumed_le_of_decode hd
      have hrx := (executedFrameQueues i s t hi).2.1
      refine ⟨q.drop i.consumed, ?_, step_eq_next.2 ⟨hc, .inr ⟨i, hdec.trans hd, exec_withRxq_next hle hi⟩⟩⟩
      rw [hrx, List.map_drop, List.map_drop, hq]
  · obtain ⟨hc, i, hd, hi⟩ := step_eq_fault.1 hf
    exact step_eq_fault.2 ⟨hc, i, hdec.trans hd, exec_withRxq_fault hlen hi⟩

/-- The state with other values in the registers that no rule reads. -/
def withUnread (s : State) (rs : ReaderState) (pl : PriceLimits) (fl info : Byte) : State :=
  { s with rs := rs, pl := pl, dc := ⟨fl, s.dc.columns, s.dc.rows, info⟩ }

section
variable (s : State) (rs : ReaderState) (pl : PriceLimits) (fl info : Byte)

/-- Of DC a reply depends on columns and rows only (R92). -/
theorem replyWords_withUnread (i : Instr) : replyWords (withUnread s rs pl fl info) i = replyWords s i := by
  cases hgood : i.checksumGood s.cfg with
  | false => rw [replyWords_of_bad hgood, replyWords_of_bad (s := withUnread s rs pl fl info) hgood]
  | true => cases i <;> rfl

/-- What is written to the registers that are read does not depend on those that are not. -/
theorem registersAfter_withUnread (i : Instr) :
    (registersAfter i (withUnread s rs pl fl info)).pe = (registersAfter i s).pe ∧
      (registersAfter i (withUnread s rs pl fl info)).drawCount = (registersAfter i s).drawCount ∧
      (registersAfter i (withUnread s rs pl fl info)).dc.columns = (registersAfter i s).dc.columns ∧
      (registersAfter i (withUnread s rs pl fl info)).dc.rows = (registersAfter i s).dc.rows := by
  cases hgood : i.checksumGood s.cfg with
  | false =>
    rw [registersAfter_of_bad hgood, registersAfter_of_bad (s := withUnread s rs pl fl info) hgood]
    exact ⟨rfl, rfl, rfl, rfl⟩
  | true =>
    rw [registersAfter_of_good hgood, registersAfter_of_good (s := withUnread s rs pl fl info) hgood]
    cases i <;> exact ⟨rfl, rfl, rfl, rfl⟩

theorem exec_withUnread_next {i : Instr} {t : State} (h : exec i s = .next t) :
    exec i (withUnread s rs pl fl info) = .next (frameResult i (withUnread s rs pl fl info)) := by
  obtain ⟨hq, hroom, -⟩ := exec_eq_next.1 h
  refine exec_next hq ?_
  rw [replyWords_withUnread]
  exact hroom

theorem exec_withUnread_fault {i : Instr} {f : Fault} (h : exec i s = .fault f) :
    exec i (withUnread s rs pl fl info) = .fault f := by
  rw [exec_eq_fault] at h ⊢
  rw [replyWords_withUnread]
  exact h

end

/-- Settles O50: decoding does not see these registers, and neither the reply nor what is written depends on them. -/
theorem unreadRegistersAffectNoOutput : Obligations.UnreadRegistersAffectNoOutput := by
  intro s rs pl fl info
  refine ⟨fun t ht => ?_, fun f hf => ?_⟩
  · obtain ⟨hc, ⟨hnone, rfl⟩ | ⟨i, hd, hi⟩⟩ := step_eq_next.1 ht
    · exact ⟨withUnread t rs pl fl info, step_eq_next.2 ⟨hc, .inl ⟨hnone, rfl⟩⟩, rfl, rfl, rfl, rfl, rfl, rfl⟩
    · have hstep := (step_eq_next (s := withUnread s rs pl fl info)).2 ⟨hc, .inr ⟨i, hd, exec_withUnread_next s rs pl fl info hi⟩⟩
      obtain ⟨-, -, rfl⟩ := exec_eq_next.1 hi
      refine ⟨_, hstep, ?_, rfl, registersAfter_withUnread s rs pl fl info i⟩
      rw [frameResult_txq, frameResult_txq, replyWords_withUnread]
      rfl
  · obtain ⟨hc, i, hd, hi⟩ := step_eq_fault.1 hf
    exact step_eq_fault.2 ⟨hc, i, hd, exec_withUnread_fault s rs pl fl info hi⟩

end Sys2Proof.Machine
end

-- The codec as the host sees it: data bits, operands, the checksum test, responses (40_codec.md R55 to R60), and the written frame
-- lines (30_encoding.md R50, 70_reset_and_hazards.md R137).
section
namespace Sys2Proof.Machine

theorem toNat_strip (w : Word) : (strip w).toNat = w.toNat % 256 := BitVec.toNat_ofNat _ 8

theorem strip_and_not_modeBit (w : Word) : strip (w &&& ~~~modeBit) = strip w := by
  have hall : ∀ w : Word, strip (w &&& ~~~modeBit) = strip w := by decide
  exact hall w

/-- Settles O1: bits 7..0 are the remainder by 256; the mode bit is above them. -/
theorem stripDiscardsModeBit : Obligations.StripDiscardsModeBit := fun w =>
  ⟨toNat_strip w, BitVec.eq_of_toNat_eq (by simp [toNat_strip]), strip_or_modeBit w, strip_and_not_modeBit w⟩

theorem toNat_be16 (a b : Byte) : (be16 a b).toNat = a.toNat * 256 + b.toNat := by
  have ha := a.isLt
  have hb := b.isLt
  exact (BitVec.toNat_ofNat _ 16).trans (Nat.mod_eq_of_lt (by omega))

/-- Settles O5: two bytes fit into 16 bits. -/
theorem operandsAreBigEndian : Obligations.OperandsAreBigEndian := fun a b v => ⟨toNat_be16 a b, be16_high_low v⟩

/-- Everything `validate` does, in terms of the data bytes: the last one is compared with the checksum of the others (R57). -/
theorem validate_of_bytes {ws : List Word} {bs : List Byte} {b : Byte} (h : ws.map strip = bs ++ [b]) :
    validate ws = (checksum bs == b) := by
  obtain rfl | ⟨front, w, rfl⟩ := List.eq_nil_or_concat' ws
  · simp at h
  · rw [List.map_append] at h
    obtain ⟨hfront, hlast⟩ := List.append_inj' h rfl
    obtain rfl : strip w = b := by simpa using hlast
    simp [validate, hfront]

theorem bytes_of_receivedChecksum {i : Instr} {chk : Byte} (h : i.receivedChecksum = some chk) (c : Config) :
    i.bytes c = i.body c ++ [chk] := by
  rw [Instr.bytes, h]
  rfl

theorem checksumGood_of_some {i : Instr} {chk : Byte} (h : i.receivedChecksum = some chk) (c : Config) :
    i.checksumGood c = (checksum (i.body c) == chk) := by
  simp [Instr.checksumGood, h]

/-- Settles O3: all three clauses by the data bytes of the words. -/
theorem validateExcludesLastWord : Obligations.ValidateExcludesLastWord := by
  refine ⟨fun f w _ => ?_, fun c i hi => ?_⟩
  · have hbytes : (f ++ [w]).map strip = f.map strip ++ [strip w] := by simp
    have hbytes' : ((f ++ [w]).map (fun v => v ||| modeBit)).map strip = f.map strip ++ [strip w] := by
      simp [strip_or_modeBit, Function.comp_def]
    rw [validate_of_bytes hbytes, validate_of_bytes hbytes', beq_iff_eq]
    exact ⟨Iff.rfl, rfl⟩
  · obtain ⟨chk, hchk⟩ := Option.ne_none_iff_exists'.1 hi
    rw [checksumGood_of_some hchk]
    apply validate_of_bytes
    rw [encode, map_strip_frameWords, bytes_of_receivedChecksum hchk]

/-- Settles O4: the response is `terminatedWords`, which has as many words as there are bytes. -/
theorem emitAppendsTerminatedResponse : Obligations.EmitAppendsTerminatedResponse := by
  intro bytes chk s front last hne hsplit
  have hwords : responseWords bytes chk = front.map plainWord ++ [terminate last] := by
    rw [responseWords, hsplit, terminatedWords_concat]
  have hlen : (responseWords bytes chk).length = front.length + 1 := by simp [hwords]
  rw [← hlen, ← hwords]
  exact ⟨emit_ok, emit_full hne⟩

/-- The same frame with another checksum byte, where it carries one. -/
def withChecksum (chk : Byte) : Instr → Instr
  | .setupConfig fl cols rows info _ => .setupConfig fl cols rows info chk
  | .setupPrice max min _ => .setupPrice max min chk
  | .setupOther sub p0 p1 p2 p3 _ => .setupOther sub p0 p1 p2 p3 chk
  | .vendRequest price item _ => .vendRequest price item chk
  | .vendSuccess item _ => .vendSuccess item chk
  | i => i

@[simp] theorem wf_withChecksum (chk : Byte) (i : Instr) (c : Config) : (withChecksum chk i).wf c = i.wf c := by
  cases i <;> rfl

@[simp] theorem body_withChecksum (chk : Byte) (i : Instr) (c : Config) : (withChecksum chk i).body c = i.body c := by
  cases i <;> rfl

theorem receivedChecksum_withChecksum (chk : Byte) (i : Instr) :
    (withChecksum chk i).receivedChecksum = i.receivedChecksum.map (fun _ => chk) := by
  cases i <;> rfl

theorem withRightChecksum_eq (c : Config) (i : Instr) : withRightChecksum c i = withChecksum (checksum (i.body c)) i := by
  cases i <;> rfl

theorem checksumGood_withRightChecksum (c : Config) (i : Instr) : (withRightChecksum c i).checksumGood c = true := by
  rw [withRightChecksum_eq]
  cases h : i.receivedChecksum with
  | none => exact checksumGood_of_none (by rw [receivedChecksum_withChecksum, h]; rfl) c
  | some x =>
    have hsome : (withChecksum (checksum (i.body c)) i).receivedChecksum = some (checksum (i.body c)) := by
      rw [receivedChecksum_withChecksum, h]
      rfl
    rw [checksumGood_of_some hsome, body_withChecksum, beq_self_eq_true]

/-- Settles O58: a frame line is an encoded instruction; a `!BADCHK` line is the encoding of the same frame with a checksum byte that
is one too large. -/
theorem frameLinesDecode : Obligations.FrameLinesDecode := by
  intro c i rest hc hi
  refine ⟨decodeOfEncode c _ rest hc ?_, checksumGood_withRightChecksum c i, fun hchk => ?_⟩
  · rw [withRightChecksum_eq, wf_withChecksum, hi]
  · obtain ⟨x, hx⟩ := Option.ne_none_iff_exists'.1 hchk
    have hsome : (withChecksum (checksum (i.body c) + 1) i).receivedChecksum = some (checksum (i.body c) + 1) := by
      rw [receivedChecksum_withChecksum, hx]
      rfl
    have hwords : (FrameLine.badChecksum i).words c = encode c (withChecksum (checksum (i.body c) + 1) i) := by
      rw [encode, bytes_of_receivedChecksum hsome, body_withChecksum]
      rfl
    refine ⟨withChecksum (checksum (i.body c) + 1) i, ?_, instrLabel_of_bad ?_⟩
    · rw [hwords]
      exact decodeOfEncode c _ rest hc (by rw [wf_withChecksum, hi])
    · rw [checksumGood_of_some hsome, body_withChecksum, beq_eq_false_iff_ne]
      exact (add_ne_left.2 (by decide)).symm

theorem frameWords_append {bs : List Byte} (h : bs ≠ []) (cs : List Byte) :
    frameWords (bs ++ cs) = frameWords bs ++ cs.map plainWord := by
  cases bs with
  | nil => exact absurd rfl h
  | cons b bs => simp [frameWords]

theorem bytes_of_no_checksum {i : Instr} (h : i.receivedChecksum = none) (c : Config) : i.bytes c = i.body c := by
  rw [Instr.bytes, h]
  exact List.append_nil _

/-- Settles O59: the frame in front is executed and removes its own words only. -/
theorem trailingChecksumStaysPending : Obligations.TrailingChecksumStaysPending := by
  intro s t i rest hc hi hnone hpos hq h
  have hbody := bytes_of_no_checksum hnone s.cfg
  have hlen : (i.body s.cfg).length = i.consumed := by rw [← hbody, length_bytes, if_neg (by omega)]
  have hne : i.body s.cfg ≠ [] := by
    rw [← List.length_pos_iff]
    omega
  have hq' : s.rxq = encode s.cfg i ++ (plainWord (checksum (i.body s.cfg)) :: rest) := by
    rw [hq, FrameLine.words, frameWords_append hne, encode, hbody, List.append_assoc]
    rfl
  have hd : decode s.cfg s.rxq = .frame i := by rw [hq', decodeOfEncode s.cfg i _ hc hi]
  rw [step_of_decode_frame hc hd] at h
  obtain ⟨-, hrx, -⟩ := executedFrameQueues i s t h
  have hcount : (encode s.cfg i).length = i.consumed := by rw [encode, length_frameWords, hbody, hlen]
  rw [hrx, hq', ← hcount, List.drop_left]

/-- Settles O34: nine fixed queues. -/
theorem specWordsDecodeUnderEX : Obligations.SpecWordsDecodeUnderEX := by
  unfold Obligations.SpecWordsDecodeUnderEX
  decide

/-- Settles O6: the fields of the power-up state. -/
theorem powerUpValues : Obligations.PowerUpValues := fun c =>
  ⟨State.powerUp_dc c, State.powerUp_pl c, State.powerUp_rs c, State.powerUp_pe c, State.powerUp_rxq c, State.powerUp_txq c,
    State.powerUp_cfg c, rfl⟩

end Sys2Proof.Machine
end

-- What each instruction does (42_reset_setup.md, 43_poll.md, 44_vend_reader.md): the normal form of `exec`, instruction by instruction.
section
namespace Sys2Proof.Machine

/-- An executed frame whose checksum is right or absent: its registers written, its reply sent. -/
theorem exec_of_good {i : Instr} {s : State} {reply : List Word} (hgood : i.checksumGood s.cfg = true)
    (hreply : replyWords s i = reply) (hq : i.consumed ≤ s.rxq.length) (hroom : reply = [] ∨ txRoom reply.length s = true) :
    exec i s = .next { registersWritten i s with rxq := s.rxq.drop i.consumed, txq := s.txq ++ reply } := by
  subst hreply
  rw [exec_next hq hroom, frameResult, registersAfter_of_good hgood]

/-- A frame that sends nothing leaves TXQ as it is. -/
theorem exec_of_silent {i : Instr} {s : State} (hgood : i.checksumGood s.cfg = true) (hreply : replyWords s i = [])
    (hq : i.consumed ≤ s.rxq.length) (htxq : (registersWritten i s).txq = s.txq) :
    exec i s = .next { registersWritten i s with rxq := s.rxq.drop i.consumed } := by
  rw [exec_of_good hgood hreply hq (.inl rfl), List.append_nil, ← htxq]

theorem instrLabel_of_good {c : Config} {i : Instr} (hi : i.consumed ≠ 0) (hgood : i.checksumGood c = true) :
    instrLabel c i = .done := by
  rw [instrLabel_of_consumed hi, hgood]
  rfl

/-- Settles O28: both arms of `exec` answer the state itself. -/
theorem unhandledCommandsChangeNothing : Obligations.UnhandledCommandsChangeNothing := fun s b =>
  ⟨exec_of_consumed_zero (i := .expansion) rfl s, exec_of_consumed_zero (i := .unknown b) rfl s,
    instrLabel_of_consumed_zero (i := .expansion) rfl s.cfg, instrLabel_of_consumed_zero (i := .unknown b) rfl s.cfg⟩

/-- Settles O7: the registers of R80 and the acknowledge. -/
theorem resetClearsRegisters : Obligations.ResetClearsRegisters := fun _ hq hroom =>
  ⟨exec_of_good (i := .reset) rfl rfl hq (.inr hroom), rfl⟩

/-- Settles O9: the checksum is tested over the limits' bytes. -/
theorem setupPriceLoadsLimits : Obligations.SetupPriceLoadsLimits := by
  intro s max min chk hq hroom hchk
  have hgood : (Instr.setupPrice max min chk).checksumGood s.cfg = true :=
    (checksumGood_of_some rfl s.cfg).trans (beq_iff_eq.2 hchk.symm)
  exact ⟨exec_of_good hgood (if_pos hgood) hq (.inr hroom), instrLabel_of_good (Nat.succ_ne_zero _) hgood⟩

/-- Settles O18: the answer is a free draw, and the effect is the same for both. -/
theorem vendRequestPostsAnswer : Obligations.VendRequestPostsAnswer := by
  intro s price item chk hq hchk
  have hgood : (Instr.vendRequest price item chk).checksumGood s.cfg = true :=
    (checksumGood_of_some rfl s.cfg).trans (beq_iff_eq.2 hchk.symm)
  have hexec := exec_of_silent hgood (if_pos hgood) hq rfl
  exact ⟨⟨Config.freeAuthorize s.drawCount price item, s.drawCount + 1, hexec⟩, instrLabel_of_good (Nat.succ_ne_zero _) hgood, rfl, rfl⟩

/-- Settles O20: the checksum is tested over four bytes. -/
theorem vendSuccessAcknowledges : Obligations.VendSuccessAcknowledges := by
  intro s item chk hq hroom hchk
  have hgood : (Instr.vendSuccess item chk).checksumGood s.cfg = true :=
    (checksumGood_of_some rfl s.cfg).trans (beq_iff_eq.2 hchk.symm)
  exact ⟨exec_of_good hgood (if_pos hgood) hq (.inr hroom), instrLabel_of_good (Nat.succ_ne_zero _) hgood⟩

/-- Settles O19: one word for the vend-denied code. -/
theorem vendCancelEndsVend : Obligations.VendCancelEndsVend := fun _ hq hroom =>
  ⟨exec_of_good (i := .vendCancel) rfl rfl hq (.inr hroom), rfl⟩

/-- Settles O21: the acknowledge, no register written. -/
theorem vendFailureAcknowledges : Obligations.VendFailureAcknowledges := fun _ hq hroom =>
  ⟨exec_of_good (i := .vendFailure) rfl rfl hq (.inr hroom), rfl⟩

/-- Settles O22: one word for the end-session code. -/
theorem vendSessionCompleteEnables : Obligations.VendSessionCompleteEnables := fun _ hq hroom =>
  ⟨exec_of_good (i := .vendSessionComplete) rfl rfl hq (.inr hroom), rfl⟩

/-- Settles O23: both send nothing and write no register. -/
theorem vendPlaceholdersAreSilent : Obligations.VendPlaceholdersAreSilent := fun _ sub hq =>
  ⟨exec_of_silent (i := .vendCashSale) rfl rfl hq rfl, exec_of_silent (i := .vendOther sub) rfl rfl hq rfl, rfl, rfl⟩

/-- Settles O24: RS DISABLED and the acknowledge. -/
theorem readerDisableResult : Obligations.ReaderDisableResult := fun _ hq hroom =>
  ⟨exec_of_good (i := .readerDisable) rfl rfl hq (.inr hroom), rfl⟩

/-- Settles O25: RS ENABLED and the acknowledge. -/
theorem readerEnableResult : Obligations.ReaderEnableResult := fun _ hq hroom =>
  ⟨exec_of_good (i := .readerEnable) rfl rfl hq (.inr hroom), rfl⟩

/-- Settles O26: one word for the cancelled code, no register written. -/
theorem readerCancelResult : Obligations.ReaderCancelResult := fun _ hq hroom =>
  ⟨exec_of_good (i := .readerCancel) rfl rfl hq (.inr hroom), rfl⟩

/-- Settles O27: the decoder names the "other" instruction, which sends nothing. -/
theorem readerOtherIsSilent : Obligations.ReaderOtherIsSilent := by
  intro s w0 w1 rest hc hq h0 h1 h2 h3
  have hother : readerInstr s.cfg (strip w1) = .readerOther (strip w1) := by rw [readerInstr, if_neg h1, if_neg h2, if_neg h3]
  have hd : decode s.cfg s.rxq = .frame (.readerOther (strip w1)) := by
    rw [hq, decode_reader _ hc h0, decodeReader_cons, hother]
  have hexec : exec (.readerOther (strip w1)) s = .next { s with rxq := s.rxq.drop 2 } :=
    exec_of_silent rfl rfl (consumed_le_of_decode hd) rfl
  rw [hq] at hexec
  exact ⟨hexec, (step_of_decode_frame hc hd).trans hexec, activationLabel_of_decode hd⟩

/-- POLL, given what R89 to R96 answer for the pending event. -/
theorem exec_poll {s : State} {bytes : List Byte} {chk : Bool} (hq : 1 ≤ s.rxq.length)
    (hresp : pollResponse s.cfg s.dc (Config.freeMessageByte s.drawCount) (Config.freeVendAmount s.drawCount) s.pe = (bytes, chk))
    (hroom : txRoom (bytes.length + chk.toNat) s = true) :
    exec .poll s = .next { s with
      rxq := s.rxq.drop 1, pe := .none, drawCount := s.drawCount + pollDraws s.pe,
      txq := s.txq ++ responseWords bytes chk } := by
  have hreply : replyWords s .poll = responseWords bytes chk := by
    have hpoll : replyWords s .poll = responseWords
        (pollResponse s.cfg s.dc (Config.freeMessageByte s.drawCount) (Config.freeVendAmount s.drawCount) s.pe).1
        (pollResponse s.cfg s.dc (Config.freeMessageByte s.drawCount) (Config.freeVendAmount s.drawCount) s.pe).2 := rfl
    rw [hpoll, hresp]
  rw [← length_responseWords] at hroom
  exact exec_of_good (i := .poll) rfl hreply hq (.inr hroom)

/-- POLL of an event that takes no draw. -/
theorem exec_poll_no_draw {s : State} {bytes : List Byte} {chk : Bool} (hq : 1 ≤ s.rxq.length)
    (hresp : pollResponse s.cfg s.dc (Config.freeMessageByte s.drawCount) (Config.freeVendAmount s.drawCount) s.pe = (bytes, chk))
    (hdraws : pollDraws s.pe = 0) (hroom : txRoom (bytes.length + chk.toNat) s = true) :
    exec .poll s = .next { s with rxq := s.rxq.drop 1, pe := .none, txq := s.txq ++ responseWords bytes chk } := by
  rw [exec_poll hq hresp hroom, hdraws]
  rfl

/-- Settles O11: two bytes, no checksum, no draw. -/
theorem pollJustResetResponse : Obligations.PollJustResetResponse := fun s hq hroom hpe =>
  exec_poll_no_draw (bytes := [s.cfg.evJustReset, s.cfg.rspAck]) (chk := false) hq (by rw [hpe]; rfl) (by rw [hpe]; rfl) hroom

/-- Settles O12: eight bytes and their checksum; the identity is its first byte before the other seven. -/
theorem pollReaderConfigResponse : Obligations.PollReaderConfigResponse := by
  intro s hq hroom hpe
  refine ⟨?_, fun fl cols rows info chk hid hgood => ?_⟩
  · rw [← responseWords_with_checksum]
    exact exec_poll_no_draw (chk := true) hq (by rw [hpe]; rfl) (by rw [hpe]; rfl) hroom
  · have hpoll : replyWords s .poll = responseWords (s.cfg.evReaderConfig :: s.cfg.identity.bytesFromFeatureLevel) true := by
      rw [replyWords, hpe]
      rfl
    have hconfig : replyWords s (.setupConfig fl cols rows info chk) = responseWords s.cfg.identity.bytes true := if_pos hgood
    rw [hpoll, hconfig, ← hid]
    rfl

/-- Settles O13: the message is the free bytes of this draw. -/
theorem pollDisplayRequestResponse : Obligations.PollDisplayRequestResponse := by
  intro s hq hpe hroom
  refine ⟨(List.range (displayLength s.dc)).map (Config.freeMessageByte s.drawCount), s.drawCount + 1, ?_, ?_⟩
  · rw [List.length_map, List.length_range]
    rfl
  · have hexec := exec_poll (s := s) (chk := false) hq (by rw [hpe]; rfl) (by
      simp only [List.length_cons, List.length_map, List.length_range, Bool.toNat_false, Nat.add_zero]
      rw [Nat.add_comm]
      exact hroom)
    rw [hexec, hpe]
    rfl

/-- Settles O14: the three bytes and their checksum. -/
theorem pollBeginSessionResponse : Obligations.PollBeginSessionResponse := fun s hq hroom hpe =>
  exec_poll_no_draw (bytes := [s.cfg.evBeginSession, highByte s.cfg.fundsPlaceholder, lowByte s.cfg.fundsPlaceholder])
    (chk := true) hq (by rw [hpe]; rfl) (by rw [hpe]; rfl) hroom

/-- Settles O15: nine values of PE, each with a response of one byte. -/
theorem pollBareEventResponse : Obligations.PollBareEventResponse := by
  intro s code hq hroom hcases
  have hone (hresp : pollResponse s.cfg s.dc (Config.freeMessageByte s.drawCount) (Config.freeVendAmount s.drawCount) s.pe =
      ([code], false)) (hdraws : pollDraws s.pe = 0) :
      exec .poll s = .next { s with rxq := s.rxq.drop 1, pe := .none, txq := s.txq ++ [terminate code] } :=
    exec_poll_no_draw hq hresp hdraws hroom
  rcases hcases with ⟨hpe, rfl⟩ | ⟨hpe, rfl⟩ | ⟨hpe, rfl⟩ | ⟨hpe, rfl⟩ | ⟨hpe, rfl⟩ | ⟨hpe, rfl⟩ | ⟨hpe, rfl⟩ | ⟨hpe, rfl⟩ |
    ⟨hpe, rfl⟩
  all_goals exact hone (by rw [hpe]; rfl) (by rw [hpe]; rfl)

/-- Settles O16: the amount is the free value of this draw. -/
theorem pollVendApprovedResponse : Obligations.PollVendApprovedResponse := by
  intro s hq hroom hpe
  have hexec := exec_poll (s := s) (bytes := [s.cfg.evVendApproved, highByte (Config.freeVendAmount s.drawCount),
    lowByte (Config.freeVendAmount s.drawCount)]) (chk := false) hq (by rw [hpe]; rfl) hroom
  exact ⟨_, _, hexec⟩

/-- The response of a poll for any draws, where TXQ has room for the longest one. -/
theorem effectPollWith_ok {s : State} (message : Nat → Byte) (amount : Half) (hroom : txRoom 34 s = true) :
    effectPollWith message amount s = .ok { s with
      pe := .none,
      txq := s.txq ++ responseWords (pollResponse s.cfg s.dc message amount s.pe).1
        (pollResponse s.cfg s.dc message amount s.pe).2 } := by
  have hlen := length_pollResponse s.cfg s.dc message amount s.pe
  rw [← length_responseWords] at hlen
  exact emit_ok (s := s.withPe .none) (txRoom_mono hlen hroom)

/-- Only a display request and an approved vend carry a draw (R92, R95). -/
theorem pollResponse_no_draw {pe : PollEvent} (h1 : pe ≠ .displayRequest) (h2 : pe ≠ .vendApproved) (c : Config)
    (dc : DisplayConfig) (message message' : Nat → Byte) (amount amount' : Half) :
    pollResponse c dc message amount pe = pollResponse c dc message' amount' pe := by
  cases pe with
  | displayRequest => exact absurd rfl h1
  | vendApproved => exact absurd rfl h2
  | _ => rfl

/-- Settles O17: the two events that carry a draw, and all others. -/
theorem pollCarriesEveryDraw : Obligations.PollCarriesEveryDraw := by
  intro s message amount hroom
  have hok := effectPollWith_ok message amount hroom
  refine ⟨fun hpe => ?_, fun hpe => ?_, fun h1 h2 message' amount' => ?_⟩
  · rw [hok, hpe]
    rfl
  · rw [hok, hpe]
    rfl
  · rw [effectPollWith, effectPollWith, pollResponse_no_draw h1 h2 _ _ message message' amount amount']

end Sys2Proof.Machine
end
